-- ==== Sys2Proof/Word.lean ====
section
/-! DEFINITION. The machine's words: a byte, the 16-bit word and the 32-bit double-word of R7 and R393, and
the 64-bit container that carries an operand of any length (the Long floating format is the longest). -/

namespace Sys2Proof

/-- 8 bits (R7). -/
abbrev Byte := BitVec 8

/-- The 16-bit "word" of the Series 32000 (R7). -/
abbrev Word16 := BitVec 16

/-- The 32-bit "double-word", the natural size of the machine (R7). -/
abbrev Dword := BitVec 32

/-- 64 bits: the Long floating format (R393), and the container of an immediate of any length. -/
abbrev Quad := BitVec 64

end Sys2Proof
end

