-- ==== Sys2Proof/Config.lean ====
section
/-! DEFINITION. What is fixed for one machine and does not change as it runs: the parameters that R8 leaves
open, each at the default that spec/92_eei_decisions.md gives it, and the machine's open values. An open value is
an OPAQUE constant: it has no body, so no proof can see which value it is. -/

namespace Sys2Proof.Config

/-- `ADDR_HIGH` (R59): what address bits 31..24 do. -/
inductive AddrHigh where
  | ignore  -- the address is taken modulo 2^24
  | refuse  -- an access at or above 2^24 is refused
deriving DecidableEq, Repr

/-- The spec's default (R59, D2). Log entry 4. -/
def addrHigh : AddrHigh := .refuse

/-- `BB_W1_ADVANCE` (R117, D36): the pointers move after the only word of a line one word wide. -/
def bbW1Advance : Bool := true

/-- `EXTBLT_ADVANCE_LAST` (R148, D11): the pointers also move after the last word of a line. -/
def extbltAdvanceLast : Bool := false

/-- `FMT5_UNASSIGNED` (D29): what a Format 5 encoding with opcode 1111 or with a wrong `i` does. -/
inductive Fmt5Unassigned where
  | refuse
  | trapUnd
deriving DecidableEq, Repr

/-- The spec's default (D29). -/
def fmt5Unassigned : Fmt5Unassigned := .refuse

/-- `BB_D_BIT`, `BB_S_BIT`, `BB_X_BIT`, `TBITS_S_BIT` (R86): bit numbers in the 24-bit instruction. Log entry 9. -/
def bbDBit : Nat := 17
def bbSBit : Nat := 16
def bbXBit : Nat := 15
def tbitsSBit : Nat := 16

/-- The opcodes (bits 13..10) and `i` fields (bits 9..8) of the BB series, which R83 gives. -/
def opBbor : BitVec 4 := 0b0110#4
def opBbfor : BitVec 4 := 0b1100#4
def opBbxor : BitVec 4 := 0b1110#4
def opBband : BitVec 4 := 0b1010#4
def opBbstod : BitVec 4 := 0b0100#4

/-- `OP_EXTBLT`, `OP_MOVMP`, `OP_BITWT`, `OP_TBITS`, `OP_SBITPS`, `OP_SBITS` (R88), at their defaults. Log entry 9. -/
def opExtblt : BitVec 4 := 0b0101#4
def opMovmp : BitVec 4 := 0b0111#4
def opBitwt : BitVec 4 := 0b1000#4
def opTbits : BitVec 4 := 0b1001#4
def opSbitps : BitVec 4 := 0b1011#4
def opSbits : BitVec 4 := 0b1101#4

/-- The `i` fields of those six parameters (R88), at their defaults; MOVMP has one for each length (R89). Log entry 9. -/
def iExtblt : BitVec 2 := 0b11#2
def iMovmpb : BitVec 2 := 0b00#2
def iMovmpw : BitVec 2 := 0b01#2
def iMovmpd : BitVec 2 := 0b11#2
def iBitwt : BitVec 2 := 0b01#2
def iTbits : BitVec 2 := 0b11#2
def iSbitps : BitVec 2 := 0b11#2
def iSbits : BitVec 2 := 0b11#2

/-- A DP8510/DP8511 is fitted (R2, R147 item 1). DESIGN CHOICE, log entry 12. -/
def bpuPresent : Bool := true

/-- What both stack pointers hold after reset: the SP of the start frame of spec/95_test_vectors.md, so that R462
item 1 (SP points into writable memory) holds from reset. DESIGN CHOICE, log entry 7. -/
def resetSp : Dword := 0x0000F000#32

/-- The `n`-th open value the machine meets while it runs: State.freeIdx counts them. Log entry 17. -/
opaque freeValue : Nat → Quad

/-- `BPU_result` (R150, D13): from the BPU's state (any countable state, coded as a number), the source words read in
this iteration and the destination word, the word the BPU presents and the state it goes to. Log entry 12. -/
opaque bpuResult : Nat → List Word16 → Word16 → Word16 × Nat

/-- What the external floating-point unit is asked to compute: one name per instruction of R300 to R319 that
computes (LFSR and SFSR only move the FSR). -/
inductive FpuOp where
  | abs | add | cmp | div | floor | mov | movFL | movIF | movLF | mul | neg | round | sub | trunc
  | dot | logb | poly | scalb
deriving DecidableEq, Repr

/-- What the floating-point unit answers: a value (the low bits, as many as the result is wide; for a comparison
bit 0 is Z, bit 1 is N, bit 2 is L) and the FSR it leaves. -/
structure FpuAnswer where
  value : Quad
  fsr : Dword
deriving DecidableEq, Repr, Inhabited

/-- The external unit's arithmetic (R34: "The spec gives floating-point no semantics"): a function of the operation,
the widths in bits of its operands and of its result, the FSR and the operands' bits. Log entry 19. -/
opaque fpuAnswer : FpuOp → Nat → Nat → Dword → List Quad → FpuAnswer

end Sys2Proof.Config
end

