-- ==== Sys2Proof/Syntax.lean ====
section
/-! DEFINITION. The instructions as syntax: one constructor per row of spec/opcode_table.json, its operands as the
source's section 2.2 lists them (R201 to R357), and the operand forms of R384 to R392 with the codes of R95. -/

namespace Sys2Proof

/-- The eight general registers (R20). In a floating-point operand the same code names F0..F7 or L0..L7 (R95). -/
inductive Reg where
  | r0 | r1 | r2 | r3 | r4 | r5 | r6 | r7
deriving DecidableEq, Repr

/-- The integer length suffix `i` (R89, R393). -/
inductive IntLen where
  | b | w | d
deriving DecidableEq, Repr

/-- The floating length suffix `f` (R393): Float (32 bits) or Long (64 bits). -/
inductive FLen where
  | float | long
deriving DecidableEq, Repr

/-- The scale of a scaled index (R392): 1, 2, 4 or 8. -/
inductive Scale where
  | b | w | d | q
deriving DecidableEq, Repr

/-- The base register of the Memory relative mode (R386). -/
inductive RelBase where
  | fp | sp | sb
deriving DecidableEq, Repr

/-- The base register of the Memory space mode (R391). -/
inductive SpaceBase where
  | fp | sp | sb | pc
deriving DecidableEq, Repr

/-- A displacement as it is encoded (R95): in one, two or four bytes, 7, 14 or 30 bits of value. -/
inductive Disp where
  | one (v : BitVec 7)
  | two (v : BitVec 14)
  | four (v : BitVec 30)
deriving DecidableEq, Repr

/-- The addressing modes other than Scaled index (R384 to R391). An immediate is held in 64 bits, zero-extended. -/
inductive BaseMode where
  | reg (r : Reg)
  | regRel (r : Reg) (disp : Disp)
  | memRel (base : RelBase) (disp1 disp2 : Disp)
  | imm (v : Quad)
  | absolute (disp : Disp)
  | external (disp1 disp2 : Disp)
  | tos
  | space (base : SpaceBase) (disp : Disp)
deriving DecidableEq, Repr

/-- A general operand `gen` (R95): a mode, or a mode scaled-indexed by a general register (R392). -/
inductive Gen where
  | plain (mode : BaseMode)
  | scaled (mode : BaseMode) (index : Reg) (scale : Scale)
deriving DecidableEq, Repr

/-- The dedicated registers that LPRi and SPRi name (R29). -/
inductive AReg where
  | upsr | fp | sp | sb | psr | intbase | mod
deriving DecidableEq, Repr

/-- The sixteen condition codes (R416); `always` is that of BR, `never` is 1111. -/
inductive Cond where
  | eq | ne | cs | cc | hi | ls | gt | le | fs | fc | lo | hs | lt | ge | always | never
deriving DecidableEq, Repr

/-- The U/W option of the string instructions: none, While match, Until match. Log entry 34. -/
inductive StopRule where
  | none | whileMatch | untilMatch
deriving DecidableEq, Repr

/-- What a string instruction with option T moves by: an element length and a direction. -/
structure StringStep where
  len : IntLen
  back : Bool
deriving DecidableEq, Repr

/-- The `reg` and `i` fields of a Format 8 instruction (R97). CVTP uses the register only and FFSi the length only; the other
field is kept so that no bit is dropped (log entry 49). -/
structure RegLen where
  reg : Reg
  len : IntLen
deriving DecidableEq, Repr

/-- A quick operand (R95): a signed 4-bit value. -/
abbrev Quick := BitVec 4

/-- The instructions of the NS32CG16. -/
inductive Instr where
  -- Graphics instructions, Format 5 (R83, R88): `da` is the option DA (decreasing address), `inv` the option -S
  -- (source inverted), `ones` the option S of TBITS.
  | bbor (da inv : Bool)  -- BBOR (R120)
  | bbfor  -- BBFOR (R121)
  | bbxor (da inv : Bool)  -- BBXOR (R122)
  | bband (da inv : Bool)  -- BBAND (R123)
  | bbstod (da inv : Bool)  -- BBSTOD (R124)
  | extblt  -- EXTBLT (R148)
  | movmpb  -- MOVMPB (R163)
  | movmpw  -- MOVMPW (R164)
  | movmpd  -- MOVMPD (R165)
  | bitwt  -- BITWT (R141)
  | tbits (ones : Bool)  -- TBITS (R183)
  | sbitps  -- SBITPS (R178)
  | sbits  -- SBITS (R171)
  -- Format 0 (R97): a branch and its displacement.
  | br (disp : Disp)  -- BR (R417)
  | bcond (cond : Cond) (disp : Disp)  -- Bcond (R416)
  -- Format 1 (R97).
  | bsr (disp : Disp)  -- BSR (R236)
  | ret (disp : Disp)  -- RET (R282)
  | cxp (disp : Disp)  -- CXP (R245)
  | rxp (disp : Disp)  -- RXP (R286)
  | rett (disp : Disp)  -- RETT (R284)
  | reti  -- RETI (R283)
  | save (list : Byte)  -- SAVE (R287)
  | restore (list : Byte)  -- RESTORE (R281)
  | enter (list : Byte) (disp : Disp)  -- ENTER (R250)
  | exit (list : Byte)  -- EXIT (R251)
  | nop  -- NOP (R421)
  | wait  -- WAIT (R297)
  | dia  -- DIA (R248)
  | flag  -- FLAG (R254)
  | svc  -- SVC (R296)
  | bpt  -- BPT (R234)
  -- Format 2 (R97): `q` is the signed quick operand.
  | addqb (q : Quick) (dst : Gen)  -- ADDQB (R408)
  | addqw (q : Quick) (dst : Gen)  -- ADDQW (R408)
  | addqd (q : Quick) (dst : Gen)  -- ADDQD (R408)
  | cmpqb (q : Quick) (src : Gen)  -- CMPQB (R403)
  | cmpqw (q : Quick) (src : Gen)  -- CMPQW (R403)
  | cmpqd (q : Quick) (src : Gen)  -- CMPQD (R403)
  | sprb (areg : AReg) (dst : Gen)  -- SPRB (R292)
  | sprw (areg : AReg) (dst : Gen)  -- SPRW (R292)
  | sprd (areg : AReg) (dst : Gen)  -- SPRD (R292)
  | scondb (cond : Cond) (dst : Gen)  -- ScondB (R288)
  | scondw (cond : Cond) (dst : Gen)  -- ScondW (R288)
  | scondd (cond : Cond) (dst : Gen)  -- ScondD (R288)
  | acbb (q : Quick) (idx : Gen) (disp : Disp)  -- ACBB (R426)
  | acbw (q : Quick) (idx : Gen) (disp : Disp)  -- ACBW (R426)
  | acbd (q : Quick) (idx : Gen) (disp : Disp)  -- ACBD (R426)
  | movqb (q : Quick) (dst : Gen)  -- MOVQB (R405)
  | movqw (q : Quick) (dst : Gen)  -- MOVQW (R405)
  | movqd (q : Quick) (dst : Gen)  -- MOVQD (R405)
  | lprb (areg : AReg) (src : Gen)  -- LPRB (R259)
  | lprw (areg : AReg) (src : Gen)  -- LPRW (R259)
  | lprd (areg : AReg) (src : Gen)  -- LPRD (R259)
  -- Format 3 (R97).
  | cxpd (desc : Gen)  -- CXPD (R246)
  | bicpsrb (src : Gen)  -- BICPSRB (R414)
  | bicpsrw (src : Gen)  -- BICPSRW (R414)
  | bicpsrd (src : Gen)  -- BICPSRD (R414)
  | jump (dst : Gen)  -- JUMP (R258)
  | bispsrb (src : Gen)  -- BISPSRB (R415)
  | bispsrw (src : Gen)  -- BISPSRW (R415)
  | bispsrd (src : Gen)  -- BISPSRD (R415)
  | adjspb (src : Gen)  -- ADJSPB (R227)
  | adjspw (src : Gen)  -- ADJSPW (R227)
  | adjspd (src : Gen)  -- ADJSPD (R227)
  | jsr (dst : Gen)  -- JSR (R257)
  | caseb (src : Gen)  -- CASEB (R237)
  | casew (src : Gen)  -- CASEW (R237)
  | cased (src : Gen)  -- CASED (R237)
  -- Format 4 (R97).
  | addb (src dst : Gen)  -- ADDB (R407)
  | addw (src dst : Gen)  -- ADDW (R407)
  | addd (src dst : Gen)  -- ADDD (R407)
  | cmpb (src1 src2 : Gen)  -- CMPB (R402)
  | cmpw (src1 src2 : Gen)  -- CMPW (R402)
  | cmpd (src1 src2 : Gen)  -- CMPD (R402)
  | bicb (src dst : Gen)  -- BICB (R413)
  | bicw (src dst : Gen)  -- BICW (R413)
  | bicd (src dst : Gen)  -- BICD (R413)
  | addcb (src dst : Gen)  -- ADDCB (R223)
  | addcw (src dst : Gen)  -- ADDCW (R223)
  | addcd (src dst : Gen)  -- ADDCD (R223)
  | movb (src dst : Gen)  -- MOVB (R404)
  | movw (src dst : Gen)  -- MOVW (R404)
  | movd (src dst : Gen)  -- MOVD (R404)
  | orb (src dst : Gen)  -- ORB (R411)
  | orw (src dst : Gen)  -- ORW (R411)
  | ord (src dst : Gen)  -- ORD (R411)
  | subb (src dst : Gen)  -- SUBB (R409)
  | subw (src dst : Gen)  -- SUBW (R409)
  | subd (src dst : Gen)  -- SUBD (R409)
  | addr (src dst : Gen)  -- ADDR (R418)
  | andb (src dst : Gen)  -- ANDB (R410)
  | andw (src dst : Gen)  -- ANDW (R410)
  | andd (src dst : Gen)  -- ANDD (R410)
  | subcb (src dst : Gen)  -- SUBCB (R294)
  | subcw (src dst : Gen)  -- SUBCW (R294)
  | subcd (src dst : Gen)  -- SUBCD (R294)
  | tbitb (off base : Gen)  -- TBITB (R425)
  | tbitw (off base : Gen)  -- TBITW (R425)
  | tbitd (off base : Gen)  -- TBITD (R425)
  | xorb (src dst : Gen)  -- XORB (R412)
  | xorw (src dst : Gen)  -- XORW (R412)
  | xord (src dst : Gen)  -- XORD (R412)
  -- Format 5, the base set (R91): `back` is option B, `stop` the U/W field.
  | movsi (len : IntLen) (back : Bool) (stop : StopRule)  -- MOVSi (R266)
  | movsti (step : StringStep) (stop : StopRule)  -- MOVSTi (R267)
  | cmpsi (len : IntLen) (back : Bool) (stop : StopRule)  -- CMPSi (R242)
  | cmpsti (step : StringStep) (stop : StopRule)  -- CMPSTi (R243)
  | setcfg (opts : BitVec 4)  -- SETCFG (R428)
  | skpsi (len : IntLen) (back : Bool) (stop : StopRule)  -- SKPSi (R290)
  | skpsti (step : StringStep) (stop : StopRule)  -- SKPSTi (R291)
  -- Format 6 (R97).
  | roti (len : IntLen) (cnt dst : Gen)  -- ROTi (R285)
  | ashi (len : IntLen) (cnt dst : Gen)  -- ASHi (R420)
  | cbiti (len : IntLen) (off base : Gen)  -- CBITi (R423)
  | cbitii (len : IntLen) (off base : Gen)  -- CBITIi (R320)
  | lshi (len : IntLen) (cnt dst : Gen)  -- LSHi (R419)
  | sbiti (len : IntLen) (off base : Gen)  -- SBITi (R422)
  | sbitii (len : IntLen) (off base : Gen)  -- SBITIi (R321)
  | negi (len : IntLen) (src dst : Gen)  -- NEGi (R275)
  | noti (len : IntLen) (src dst : Gen)  -- NOTi (R277)
  | subpi (len : IntLen) (src dst : Gen)  -- SUBPi (R295)
  | absi (len : IntLen) (src dst : Gen)  -- ABSi (R220)
  | comi (len : IntLen) (src dst : Gen)  -- COMi (R244)
  | ibiti (len : IntLen) (off base : Gen)  -- IBITi (R424)
  | addpi (len : IntLen) (src dst : Gen)  -- ADDPi (R224)
  -- Format 7 (R97).
  | movmi (len : IntLen) (src dst : Gen) (disp : Disp)  -- MOVMi (R264)
  | cmpmi (len : IntLen) (src1 src2 : Gen) (disp : Disp)  -- CMPMi (R240)
  | inssi (len : IntLen) (src base : Gen) (off : BitVec 3) (size : BitVec 5)  -- INSSi (R256)
  | extsi (len : IntLen) (base dst : Gen) (off : BitVec 3) (size : BitVec 5)  -- EXTSi (R253)
  | muli (len : IntLen) (src dst : Gen)  -- MULi (R274)
  | meii (len : IntLen) (src dst : Gen)  -- MEIi (R261)
  | deii (len : IntLen) (src dst : Gen)  -- DEIi (R247)
  | quoi (len : IntLen) (src dst : Gen)  -- QUOi (R279)
  | remi (len : IntLen) (src dst : Gen)  -- REMi (R280)
  | modi (len : IntLen) (src dst : Gen)  -- MODi (R262)
  | divi (len : IntLen) (src dst : Gen)  -- DIVi (R249)
  | movxbw (src dst : Gen)  -- MOVXBW (R427)
  | movzbw (src dst : Gen)  -- MOVZBW (R406)
  | movzbd (src dst : Gen)  -- MOVZBD (R406)
  | movzwd (src dst : Gen)  -- MOVZWD (R406)
  | movxbd (src dst : Gen)  -- MOVXBD (R427)
  | movxwd (src dst : Gen)  -- MOVXWD (R427)
  -- Format 8 (R97): the register operand is named before gen1 and gen2.
  | exti (len : IntLen) (off : Reg) (base dst : Gen) (disp : Disp)  -- EXTi (R252)
  | cvtp (field : RegLen) (base dst : Gen)  -- CVTP (R208)
  | insi (len : IntLen) (off : Reg) (src base : Gen) (disp : Disp)  -- INSi (R255)
  | checki (len : IntLen) (dst : Reg) (bounds src : Gen)  -- CHECKi (R238)
  | indexi (len : IntLen) (accum : Reg) (size idx : Gen)  -- INDEXi (R212)
  | ffsi (field : RegLen) (base off : Gen)  -- FFSi (R210)
  -- Format 9 (R97): executed by the external floating-point unit. The `f` and `i` fields that an instruction
  -- does not use (LFSR, SFSR, MOVLF, MOVFL) are kept, and the unused gen field of LFSR and SFSR is `spare`.
  | movif (fl : FLen) (len : IntLen) (src dst : Gen)  -- MOVif (R308)
  | lfsr (fl : FLen) (len : IntLen) (src : Gen) (spare : BitVec 5)  -- LFSR (R305)
  | movlf (fl : FLen) (len : IntLen) (src dst : Gen)  -- MOVLF (R309)
  | movfl (fl : FLen) (len : IntLen) (src dst : Gen)  -- MOVFL (R307)
  | roundfi (fl : FLen) (len : IntLen) (src dst : Gen)  -- ROUNDfi (R312)
  | truncfi (fl : FLen) (len : IntLen) (src dst : Gen)  -- TRUNCfi (R315)
  | sfsr (fl : FLen) (len : IntLen) (spare : BitVec 5) (dst : Gen)  -- SFSR (R313)
  | floorfi (fl : FLen) (len : IntLen) (src dst : Gen)  -- FLOORfi (R304)
  -- Formats 11 and 12 (R97).
  | addf (fl : FLen) (src dst : Gen)  -- ADDf (R301)
  | movf (fl : FLen) (src dst : Gen)  -- MOVf (R306)
  | cmpf (fl : FLen) (src1 src2 : Gen)  -- CMPf (R302)
  | subf (fl : FLen) (src dst : Gen)  -- SUBf (R314)
  | negf (fl : FLen) (src dst : Gen)  -- NEGf (R311)
  | divf (fl : FLen) (src dst : Gen)  -- DIVf (R303)
  | mulf (fl : FLen) (src dst : Gen)  -- MULf (R310)
  | absf (fl : FLen) (src dst : Gen)  -- ABSf (R300)
  | polyf (fl : FLen) (src1 src2 : Gen)  -- POLYf (R318)
  | dotf (fl : FLen) (src1 src2 : Gen)  -- DOTf (R316)
  | scalbf (fl : FLen) (src dst : Gen)  -- SCALBf (R319)
  | logbf (fl : FLen) (src dst : Gen)  -- LOGBf (R317)
  -- The 28 removed instructions (R92, R330 to R357): `word` is the 16 bits that follow the first byte.
  | rdval (word : Word16)  -- RDVAL (R332)
  | wrval (word : Word16)  -- WRVAL (R333)
  | lmr (word : Word16)  -- LMR (R330)
  | smr (word : Word16)  -- SMR (R331)
  | movsui (word : Word16)  -- MOVSUi (R334)
  | movusi (word : Word16)  -- MOVUSi (R335)
  | catst0 (word : Word16)  -- CATST0 (R354)
  | catst1 (word : Word16)  -- CATST1 (R355)
  | lcr (word : Word16)  -- LCR (R356)
  | scr (word : Word16)  -- SCR (R357)
  | ccv0ci (word : Word16)  -- CCV0ci (R346)
  | ccv1ci (word : Word16)  -- CCV1ci (R347)
  | ccv2ci (word : Word16)  -- CCV2ci (R348)
  | ccv3ci (word : Word16)  -- CCV3ci (R349)
  | ccv4dq (word : Word16)  -- CCV4DQ (R350)
  | ccv5qd (word : Word16)  -- CCV5QD (R351)
  | lcsr (word : Word16)  -- LCSR (R352)
  | scsr (word : Word16)  -- SCSR (R353)
  | ccal0c (word : Word16)  -- CCAL0c (R336)
  | ccal1c (word : Word16)  -- CCAL1c (R337)
  | ccal2c (word : Word16)  -- CCAL2c (R338)
  | ccal3c (word : Word16)  -- CCAL3c (R339)
  | cmov0c (word : Word16)  -- CMOV0c (R340)
  | cmov1c (word : Word16)  -- CMOV1c (R341)
  | cmov2c (word : Word16)  -- CMOV2c (R342)
  | cmov3c (word : Word16)  -- CMOV3c (R343)
  | ccmp0c (word : Word16)  -- CCMP0c (R344)
  | ccmp1c (word : Word16)  -- CCMP1c (R345)
deriving DecidableEq, Repr

end Sys2Proof
end

