-- ==== Sys2Proof/WellFormed.lean ====
section
/-! DEFINITION. Which instructions the spec gives an encoding and operands it allows: displacements that are not the
reserved pattern, immediates that fit the operand, no scaled index over an immediate (R95), no immediate as a
destination (R96, R401), a memory mode where an address is wanted (R418). The decoder reads an ill-formed operand
form as what it is; the meaning of the instruction then stops by name (log entry 21). -/

namespace Sys2Proof

/-- Length in bytes of the integer types (R400). -/
def IntLen.bytes : IntLen → Nat
  | .b => 1
  | .w => 2
  | .d => 4

/-- Length in bytes of the floating types (R393). -/
def FLen.bytes : FLen → Nat
  | .float => 4
  | .long => 8

/-- How an instruction uses a general operand: read, written, read and written, only its address, a base of a bit or
of a bit field (a register or an address), a pair of registers or twice the length in memory, and the same for
floating operands. -/
inductive Access where
  | read | write | rmw | addr | bits | pair | fread | fwrite | frmw
deriving DecidableEq, Repr

/-- A general operand of an instruction, its use and its length in bytes. -/
structure Operand where
  gen : Gen
  access : Access
  bytes : Nat
deriving DecidableEq, Repr

/-- The first byte 11100000 of a displacement is reserved (R95). -/
def Disp.wf : Disp → Bool
  | .one _ | .two _ => true
  | .four v => v.extractLsb' 24 6 != 0b100000#6

/-- The displacement is not negative. -/
def Disp.nonneg : Disp → Bool
  | .one v => !v.msb
  | .two v => !v.msb
  | .four v => !v.msb

/-- The mode's displacements are not reserved and its immediate fits `n` bytes. -/
def BaseMode.wf (n : Nat) : BaseMode → Bool
  | .reg _ | .tos => true
  | .regRel _ d | .absolute d | .space _ d => d.wf
  | .memRel _ d1 d2 | .external d1 d2 => d1.wf && d2.wf
  | .imm v => decide (v.toNat < 256 ^ n)

/-- Immediate cannot be the base mode of a scaled index. -/
def BaseMode.indexable : BaseMode → Bool
  | .imm _ => false
  | .reg _ | .tos | .regRel _ _ | .absolute _ | .space _ _ | .memRel _ _ _ | .external _ _ => true

/-- The general operand is one the encoding of R95 admits for an operand of `n` bytes. -/
def Gen.wf (n : Nat) : Gen → Bool
  | .plain m => m.wf n
  | .scaled m _ _ => m.wf n && m.indexable

/-- R0, R2, R4 or R6: the first of a register pair. -/
def Reg.even : Reg → Bool
  | .r0 | .r2 | .r4 | .r6 => true
  | .r1 | .r3 | .r5 | .r7 => false

/-- The operand form suits its use. -/
def Access.allows : Access → Gen → Bool
  | _, .scaled _ _ _ => true
  | .read, .plain _ | .fread, .plain _ => true
  | .addr, .plain m => match m with
    | .reg _ | .imm _ => false
    | .tos | .regRel _ _ | .absolute _ | .space _ _ | .memRel _ _ _ | .external _ _ => true
  | .pair, .plain m => match m with
    | .reg r => r.even
    | .imm _ => false
    | .tos | .regRel _ _ | .absolute _ | .space _ _ | .memRel _ _ _ | .external _ _ => true
  | .write, .plain m | .rmw, .plain m | .bits, .plain m | .fwrite, .plain m | .frmw, .plain m => m.indexable

/-- The operand is encodable and suits its use. -/
def Operand.wf (o : Operand) : Bool := o.gen.wf o.bytes && o.access.allows o.gen

/-- Bits 13..10 of a three-byte instruction, which are bits 5..2 of its second and third byte. -/
def opField (w : Word16) : Nat := (w.extractLsb' 2 4).toNat

/-- The `i` field of a three-byte instruction, bits 9..8, is not 10 (R89, R99). -/
def iFieldOk (w : Word16) : Bool := w.extractLsb' 0 2 != 0b10#2

/-- A Format 14 instruction: `i` is not 10, and bit 14 of the instruction is 0 (R97). -/
def fmt14Ok (w : Word16) : Bool := iFieldOk w && !w.getLsbD 6

/-- The general operands of an instruction, in the order of their fields. -/
def Instr.operands : Instr → List Operand
  | .bbor _ _ | .bbfor | .bbxor _ _ | .bband _ _ | .bbstod _ _ | .extblt | .movmpb | .movmpw | .movmpd | .bitwt
  | .tbits _ | .sbitps | .sbits | .br _ | .bcond _ _ | .bsr _ | .ret _ | .cxp _ | .rxp _ | .rett _ | .reti | .save _
  | .restore _ | .enter _ _ | .exit _ | .nop | .wait | .dia | .flag | .svc | .bpt | .movsi _ _ _ | .movsti _ _
  | .cmpsi _ _ _ | .cmpsti _ _ | .setcfg _ | .skpsi _ _ _ | .skpsti _ _ | .rdval _ | .wrval _ | .lmr _ | .smr _
  | .movsui _ | .movusi _ | .catst0 _ | .catst1 _ | .lcr _ | .scr _ | .ccv0ci _ | .ccv1ci _ | .ccv2ci _ | .ccv3ci _
  | .ccv4dq _ | .ccv5qd _ | .lcsr _ | .scsr _ | .ccal0c _ | .ccal1c _ | .ccal2c _ | .ccal3c _ | .cmov0c _ | .cmov1c _
  | .cmov2c _ | .cmov3c _ | .ccmp0c _ | .ccmp1c _ => []
  | .addqb _ g | .acbb _ g _ => [⟨g, .rmw, 1⟩]
  | .addqw _ g | .acbw _ g _ => [⟨g, .rmw, 2⟩]
  | .addqd _ g | .acbd _ g _ => [⟨g, .rmw, 4⟩]
  | .cmpqb _ g | .lprb _ g | .bicpsrb g | .bispsrb g | .adjspb g | .caseb g => [⟨g, .read, 1⟩]
  | .cmpqw _ g | .lprw _ g | .bicpsrw g | .bispsrw g | .adjspw g | .casew g => [⟨g, .read, 2⟩]
  | .cmpqd _ g | .lprd _ g | .bicpsrd g | .bispsrd g | .adjspd g | .cased g | .lfsr _ _ g _ => [⟨g, .read, 4⟩]
  | .sprb _ g | .scondb _ g | .movqb _ g => [⟨g, .write, 1⟩]
  | .sprw _ g | .scondw _ g | .movqw _ g => [⟨g, .write, 2⟩]
  | .sprd _ g | .scondd _ g | .movqd _ g | .sfsr _ _ _ g => [⟨g, .write, 4⟩]
  | .cxpd g | .jump g | .jsr g => [⟨g, .addr, 4⟩]
  | .addb g1 g2 | .bicb g1 g2 | .addcb g1 g2 | .orb g1 g2 | .subb g1 g2 | .andb g1 g2 | .subcb g1 g2 | .xorb g1 g2 =>
      [⟨g1, .read, 1⟩, ⟨g2, .rmw, 1⟩]
  | .addw g1 g2 | .bicw g1 g2 | .addcw g1 g2 | .orw g1 g2 | .subw g1 g2 | .andw g1 g2 | .subcw g1 g2 | .xorw g1 g2 =>
      [⟨g1, .read, 2⟩, ⟨g2, .rmw, 2⟩]
  | .addd g1 g2 | .bicd g1 g2 | .addcd g1 g2 | .ord g1 g2 | .subd g1 g2 | .andd g1 g2 | .subcd g1 g2 | .xord g1 g2 =>
      [⟨g1, .read, 4⟩, ⟨g2, .rmw, 4⟩]
  | .cmpb g1 g2 => [⟨g1, .read, 1⟩, ⟨g2, .read, 1⟩]
  | .cmpw g1 g2 => [⟨g1, .read, 2⟩, ⟨g2, .read, 2⟩]
  | .cmpd g1 g2 => [⟨g1, .read, 4⟩, ⟨g2, .read, 4⟩]
  | .movb g1 g2 => [⟨g1, .read, 1⟩, ⟨g2, .write, 1⟩]
  | .movw g1 g2 => [⟨g1, .read, 2⟩, ⟨g2, .write, 2⟩]
  | .movd g1 g2 => [⟨g1, .read, 4⟩, ⟨g2, .write, 4⟩]
  | .addr g1 g2 | .cvtp _ g1 g2 => [⟨g1, .addr, 4⟩, ⟨g2, .write, 4⟩]
  | .tbitb g1 g2 => [⟨g1, .read, 1⟩, ⟨g2, .bits, 1⟩]
  | .tbitw g1 g2 => [⟨g1, .read, 2⟩, ⟨g2, .bits, 2⟩]
  | .tbitd g1 g2 => [⟨g1, .read, 4⟩, ⟨g2, .bits, 4⟩]
  | .roti n g1 g2 | .ashi n g1 g2 | .lshi n g1 g2 => [⟨g1, .read, 1⟩, ⟨g2, .rmw, n.bytes⟩]
  | .cbiti n g1 g2 | .cbitii n g1 g2 | .sbiti n g1 g2 | .sbitii n g1 g2 | .ibiti n g1 g2 | .inssi n g1 g2 _ _
  | .insi n _ g1 g2 _ => [⟨g1, .read, n.bytes⟩, ⟨g2, .bits, n.bytes⟩]
  | .negi n g1 g2 | .noti n g1 g2 | .absi n g1 g2 | .comi n g1 g2 => [⟨g1, .read, n.bytes⟩, ⟨g2, .write, n.bytes⟩]
  | .subpi n g1 g2 | .addpi n g1 g2 | .muli n g1 g2 | .quoi n g1 g2 | .remi n g1 g2 | .modi n g1 g2 | .divi n g1 g2 =>
      [⟨g1, .read, n.bytes⟩, ⟨g2, .rmw, n.bytes⟩]
  | .movmi n g1 g2 _ | .cmpmi n g1 g2 _ => [⟨g1, .addr, n.bytes⟩, ⟨g2, .addr, n.bytes⟩]
  | .extsi n g1 g2 _ _ | .exti n _ g1 g2 _ => [⟨g1, .bits, n.bytes⟩, ⟨g2, .write, n.bytes⟩]
  | .meii n g1 g2 | .deii n g1 g2 => [⟨g1, .read, n.bytes⟩, ⟨g2, .pair, n.bytes⟩]
  | .movxbw g1 g2 | .movzbw g1 g2 => [⟨g1, .read, 1⟩, ⟨g2, .write, 2⟩]
  | .movzbd g1 g2 | .movxbd g1 g2 => [⟨g1, .read, 1⟩, ⟨g2, .write, 4⟩]
  | .movzwd g1 g2 | .movxwd g1 g2 => [⟨g1, .read, 2⟩, ⟨g2, .write, 4⟩]
  | .checki n _ g1 g2 => [⟨g1, .addr, n.bytes⟩, ⟨g2, .read, n.bytes⟩]
  | .indexi n _ g1 g2 => [⟨g1, .read, n.bytes⟩, ⟨g2, .read, n.bytes⟩]
  | .ffsi f g1 g2 => [⟨g1, .read, f.len.bytes⟩, ⟨g2, .rmw, 1⟩]
  | .movif f n g1 g2 => [⟨g1, .read, n.bytes⟩, ⟨g2, .fwrite, f.bytes⟩]
  | .movlf _ _ g1 g2 => [⟨g1, .fread, 8⟩, ⟨g2, .fwrite, 4⟩]
  | .movfl _ _ g1 g2 => [⟨g1, .fread, 4⟩, ⟨g2, .fwrite, 8⟩]
  | .roundfi f n g1 g2 | .truncfi f n g1 g2 | .floorfi f n g1 g2 => [⟨g1, .fread, f.bytes⟩, ⟨g2, .write, n.bytes⟩]
  | .addf f g1 g2 | .subf f g1 g2 | .divf f g1 g2 | .mulf f g1 g2 | .scalbf f g1 g2 =>
      [⟨g1, .fread, f.bytes⟩, ⟨g2, .frmw, f.bytes⟩]
  | .movf f g1 g2 | .negf f g1 g2 | .absf f g1 g2 | .logbf f g1 g2 => [⟨g1, .fread, f.bytes⟩, ⟨g2, .fwrite, f.bytes⟩]
  | .cmpf f g1 g2 | .polyf f g1 g2 | .dotf f g1 g2 => [⟨g1, .fread, f.bytes⟩, ⟨g2, .fread, f.bytes⟩]

/-- The conditions that concern one instruction only: a displacement is not the reserved pattern,
1110 is BR's condition (R99), a block has at least one element,
and a removed instruction's 16 bits hold its sub-opcode (log entry 36), with a valid `i` where the format has one. -/
def Instr.fieldsOk : Instr → Bool
  | .bbor _ _ | .bbfor | .bbxor _ _ | .bband _ _ | .bbstod _ _ | .extblt | .movmpb | .movmpw | .movmpd | .bitwt
  | .tbits _ | .sbitps | .sbits | .reti | .save _ | .restore _ | .exit _ | .nop | .wait | .dia | .flag | .svc | .bpt
  | .addqb _ _ | .addqw _ _ | .addqd _ _ | .cmpqb _ _ | .cmpqw _ _ | .cmpqd _ _ | .sprb _ _ | .sprw _ _ | .sprd _ _
  | .scondb _ _ | .scondw _ _ | .scondd _ _ | .movqb _ _ | .movqw _ _ | .movqd _ _ | .lprb _ _ | .lprw _ _
  | .lprd _ _ | .cxpd _ | .bicpsrb _ | .bicpsrw _ | .bicpsrd _ | .jump _ | .bispsrb _ | .bispsrw _ | .bispsrd _
  | .adjspb _ | .adjspw _ | .adjspd _ | .jsr _ | .caseb _ | .casew _ | .cased _ | .addb _ _ | .addw _ _ | .addd _ _
  | .cmpb _ _ | .cmpw _ _ | .cmpd _ _ | .bicb _ _ | .bicw _ _ | .bicd _ _ | .addcb _ _ | .addcw _ _ | .addcd _ _
  | .movb _ _ | .movw _ _ | .movd _ _ | .orb _ _ | .orw _ _ | .ord _ _ | .subb _ _ | .subw _ _ | .subd _ _
  | .addr _ _ | .andb _ _ | .andw _ _ | .andd _ _ | .subcb _ _ | .subcw _ _ | .subcd _ _ | .tbitb _ _ | .tbitw _ _
  | .tbitd _ _ | .xorb _ _ | .xorw _ _ | .xord _ _ | .movsi _ _ _ | .movsti _ _ | .cmpsi _ _ _ | .cmpsti _ _
  | .setcfg _ | .skpsi _ _ _ | .skpsti _ _ | .roti _ _ _ | .ashi _ _ _ | .cbiti _ _ _ | .cbitii _ _ _ | .lshi _ _ _
  | .sbiti _ _ _ | .sbitii _ _ _ | .negi _ _ _ | .noti _ _ _ | .subpi _ _ _ | .absi _ _ _ | .comi _ _ _
  | .ibiti _ _ _ | .addpi _ _ _ | .inssi _ _ _ _ _ | .extsi _ _ _ _ _ | .muli _ _ _ | .meii _ _ _ | .deii _ _ _
  | .quoi _ _ _ | .remi _ _ _ | .modi _ _ _ | .divi _ _ _ | .movxbw _ _ | .movzbw _ _ | .movzbd _ _ | .movzwd _ _
  | .movxbd _ _ | .movxwd _ _ | .cvtp _ _ _ | .checki _ _ _ _ | .indexi _ _ _ _ | .ffsi _ _ _ | .movif _ _ _ _
  | .lfsr _ _ _ _ | .movlf _ _ _ _ | .movfl _ _ _ _ | .roundfi _ _ _ _ | .truncfi _ _ _ _ | .sfsr _ _ _ _
  | .floorfi _ _ _ _ | .addf _ _ _ | .movf _ _ _ | .cmpf _ _ _ | .subf _ _ _ | .negf _ _ _ | .divf _ _ _
  | .mulf _ _ _ | .absf _ _ _ | .polyf _ _ _ | .dotf _ _ _ | .scalbf _ _ _ | .logbf _ _ _ => true
  | .br d | .bsr d | .ret d | .cxp d | .rxp d | .rett d | .enter _ d | .acbb _ _ d | .acbw _ _ d | .acbd _ _ d
  | .exti _ _ _ _ d | .insi _ _ _ _ d => d.wf
  | .bcond c d => c != .always && d.wf
  | .movmi _ _ _ d => d.wf && d.nonneg
  | .cmpmi _ _ _ d => d.wf && d.nonneg
  | .rdval w => opField w == 0 && fmt14Ok w
  | .wrval w => opField w == 1 && fmt14Ok w
  | .lmr w => opField w == 2 && fmt14Ok w
  | .smr w => opField w == 3 && fmt14Ok w
  | .movsui w => opField w == 3 && iFieldOk w
  | .movusi w => opField w == 7 && iFieldOk w
  | .catst0 w => !(opField w == 1 || opField w == 2 || opField w == 3)
  | .catst1 w => opField w == 1
  | .lcr w => opField w == 2
  | .scr w => opField w == 3
  | .ccv0ci w => opField w / 2 == 7
  | .ccv1ci w => opField w / 2 == 5
  | .ccv2ci w => opField w / 2 == 4
  | .ccv3ci w => opField w / 2 == 0
  | .ccv4dq w => opField w / 2 == 3
  | .ccv5qd w => opField w / 2 == 2
  | .lcsr w => opField w / 2 == 1
  | .scsr w => opField w / 2 == 6
  | .ccal0c w => !([1, 2, 3, 4, 5, 8, 9, 12, 13].contains (opField w))
  | .ccal1c w => opField w == 4
  | .ccal2c w => opField w == 12
  | .ccal3c w => opField w == 8
  | .cmov0c w => opField w == 1
  | .cmov1c w => opField w == 13
  | .cmov2c w => opField w == 5
  | .cmov3c w => opField w == 9
  | .ccmp0c w => opField w == 2
  | .ccmp1c w => opField w == 3

/-- Well-formed: the spec gives the instruction an encoding and its operand forms a use. -/
def Instr.wf (i : Instr) : Bool := i.operands.all Operand.wf && i.fieldsOk

end Sys2Proof
end

