-- ==== Sys2Proof/Decode.lean ====
section
/-! DEFINITION. The instruction's bytes (30_encoding.md): first the field codes and the layouts that the decoder and
the encoder share, then the decoder, total on any bytes and rejecting by name, then the encoder, and the fixed
name decodeTableWord. Byte 0 is the byte at the lowest address (R51, R80). -/

namespace Sys2Proof

/-! ### Field codes (R29, R89, R95, R416) -/

/-- The number of a general register. -/
def Reg.code : Reg → BitVec 3
  | .r0 => 0#3 | .r1 => 1#3 | .r2 => 2#3 | .r3 => 3#3 | .r4 => 4#3 | .r5 => 5#3 | .r6 => 6#3 | .r7 => 7#3

/-- The register a 3-bit field names. -/
def Reg.ofCode (c : BitVec 3) : Reg :=
  match c.toNat with
  | 0 => .r0 | 1 => .r1 | 2 => .r2 | 3 => .r3 | 4 => .r4 | 5 => .r5 | 6 => .r6 | _ => .r7

/-- The `i` field: 00 byte, 01 word, 11 double-word (R89). -/
def IntLen.bits : IntLen → BitVec 2
  | .b => 0b00#2 | .w => 0b01#2 | .d => 0b11#2

/-- The `f` field of Formats 9, 11 and 12: 1 for Float, 0 for Long (R97). -/
def FLen.bit : FLen → BitVec 1
  | .float => 1#1 | .long => 0#1

/-- The length an `f` field names. -/
def FLen.ofBit (c : BitVec 1) : FLen := if c = 1#1 then .float else .long

/-- The condition codes of R416. -/
def Cond.code : Cond → BitVec 4
  | .eq => 0x0#4 | .ne => 0x1#4 | .cs => 0x2#4 | .cc => 0x3#4 | .hi => 0x4#4 | .ls => 0x5#4 | .gt => 0x6#4 | .le => 0x7#4
  | .fs => 0x8#4 | .fc => 0x9#4 | .lo => 0xA#4 | .hs => 0xB#4 | .lt => 0xC#4 | .ge => 0xD#4 | .always => 0xE#4
  | .never => 0xF#4

/-- The condition a code names. -/
def Cond.ofCode (c : BitVec 4) : Cond :=
  match c.toNat with
  | 0 => .eq | 1 => .ne | 2 => .cs | 3 => .cc | 4 => .hi | 5 => .ls | 6 => .gt | 7 => .le
  | 8 => .fs | 9 => .fc | 10 => .lo | 11 => .hs | 12 => .lt | 13 => .ge | 14 => .always | _ => .never

/-- The codes of the dedicated registers (R29). -/
def AReg.code : AReg → BitVec 4
  | .upsr => 0b0000#4 | .fp => 0b1000#4 | .sp => 0b1001#4 | .sb => 0b1010#4 | .psr => 0b1101#4 | .intbase => 0b1110#4
  | .mod => 0b1111#4

/-- The code of an addressing mode (R95). -/
def BaseMode.code : BaseMode → BitVec 5
  | .reg r => 0b00#2 ++ r.code
  | .regRel r _ => 0b01#2 ++ r.code
  | .memRel .fp _ _ => 0b10000#5
  | .memRel .sp _ _ => 0b10001#5
  | .memRel .sb _ _ => 0b10010#5
  | .imm _ => 0b10100#5
  | .absolute _ => 0b10101#5
  | .external _ _ => 0b10110#5
  | .tos => 0b10111#5
  | .space .fp _ => 0b11000#5
  | .space .sp _ => 0b11001#5
  | .space .sb _ => 0b11010#5
  | .space .pc _ => 0b11011#5

/-- The two low bits of a scaled-index code (R95). -/
def Scale.bits : Scale → BitVec 2
  | .b => 0b00#2 | .w => 0b01#2 | .d => 0b10#2 | .q => 0b11#2

/-- The scale two bits name. -/
def Scale.ofBits (c : BitVec 2) : Scale :=
  match c.toNat with
  | 0 => .b | 1 => .w | 2 => .d | _ => .q

/-- The 5-bit `gen` field (R95). -/
def Gen.code : Gen → BitVec 5
  | .plain m => m.code
  | .scaled _ _ k => 0b111#3 ++ k.bits

/-- The index byte of a scaled index: bits 7..3 the base mode, bits 2..0 the index register (R95). -/
def Gen.indexBytes : Gen → List Byte
  | .plain _ => []
  | .scaled m x _ => [m.code ++ x.code]

/-! ### Displacements and immediates (R95): most significant byte first -/

/-- A displacement's bytes. -/
def Disp.encode : Disp → List Byte
  | .one v => [0#1 ++ v]
  | .two v => [0b10#2 ++ v.extractLsb' 8 6, v.extractLsb' 0 8]
  | .four v => [0b11#2 ++ v.extractLsb' 24 6, v.extractLsb' 16 8, v.extractLsb' 8 8, v.extractLsb' 0 8]

/-- The value of a displacement: its bits sign-extended. -/
def Disp.val : Disp → Dword
  | .one v => v.signExtend 32
  | .two v => v.signExtend 32
  | .four v => v.signExtend 32

/-- The low `n` bytes of a value, most significant first. -/
def bigEndian (v : Quad) : Nat → List Byte
  | 0 => []
  | n + 1 => (v >>> (8 * n)).setWidth 8 :: bigEndian v n

/-- The displacements or the immediate of a mode. -/
def BaseMode.extBytes (n : Nat) : BaseMode → List Byte
  | .reg _ | .tos => []
  | .regRel _ d | .absolute d | .space _ d => d.encode
  | .memRel _ d1 d2 | .external d1 d2 => d1.encode ++ d2.encode
  | .imm v => bigEndian v n

/-- What follows the index bytes for this operand. -/
def Gen.extBytes (n : Nat) : Gen → List Byte
  | .plain m => m.extBytes n
  | .scaled m _ _ => m.extBytes n

/-! ### Layouts of the basic instruction (R80, R97), most significant field first -/

def fmt2Word (gen : BitVec 5) (short : BitVec 4) (op : BitVec 3) (i : BitVec 2) : BitVec 16 :=
  gen ++ short ++ op ++ 0b11#2 ++ i

def fmt3Word (gen : BitVec 5) (op : BitVec 4) (i : BitVec 2) : BitVec 16 := gen ++ op ++ 0b11111#5 ++ i

def fmt4Word (gen1 gen2 : BitVec 5) (op : BitVec 4) (i : BitVec 2) : BitVec 16 := gen1 ++ gen2 ++ op ++ i

def fmt5Word (short : BitVec 4) (op : BitVec 4) (i : BitVec 2) : BitVec 24 :=
  0b00000#5 ++ short ++ 0b0#1 ++ op ++ i ++ 0x0E#8

/-- Formats 6, 7, 11 and 12 have one layout and differ in the first byte. -/
def fmt6Word (gen1 gen2 : BitVec 5) (op : BitVec 4) (i : BitVec 2) (first : BitVec 8) : BitVec 24 :=
  gen1 ++ gen2 ++ op ++ i ++ first

def fmt8Word (gen1 gen2 : BitVec 5) (reg : BitVec 3) (opHi : BitVec 1) (i opLo : BitVec 2) : BitVec 24 :=
  gen1 ++ gen2 ++ reg ++ opHi ++ i ++ opLo ++ 0b101110#6

def fmt9Word (gen1 gen2 : BitVec 5) (op : BitVec 3) (f : BitVec 1) (i : BitVec 2) : BitVec 24 :=
  gen1 ++ gen2 ++ op ++ f ++ i ++ 0x3E#8

/-- The bytes of a two-byte basic instruction. -/
def bytes2 (w : BitVec 16) : List Byte := [w.extractLsb' 0 8, w.extractLsb' 8 8]

/-- The bytes of a three-byte basic instruction. -/
def bytes3 (w : BitVec 24) : List Byte := [w.extractLsb' 0 8, w.extractLsb' 8 8, w.extractLsb' 16 8]

/-- An option bit of the instruction at the position a parameter gives (R86). -/
def optBit (b : Bool) (n : Nat) : BitVec 24 := if b then 1#24 <<< n else 0#24

/-- The options D, S and the fixed bit X of the BB series (R84, R85). -/
def bbOpts (da inv x : Bool) : BitVec 24 :=
  optBit da Config.bbDBit ||| optBit inv Config.bbSBit ||| optBit x Config.bbXBit

/-- The U/W field of a string instruction: 00 none, 01 While, 11 Until. Log entry 34. -/
def StopRule.bits : StopRule → BitVec 2
  | .none => 0b00#2 | .whileMatch => 0b01#2 | .untilMatch => 0b11#2

/-- The `short` field of a string instruction: U/W, B, T (opcode table rows of MOVSi and MOVSTi). -/
def stringOpts (stop : StopRule) (back translate : Bool) : BitVec 4 :=
  stop.bits ++ BitVec.ofBool back ++ BitVec.ofBool translate

/-! ### The decoder -/

/-- Why bytes are no instruction. The model then refuses the step (R87, R91, R99, D28, D29), which is safe. -/
inductive DecodeError where
  | truncated                      -- the bytes end before the instruction does (R25)
  | unassignedFormat (first : Byte)  -- the first byte begins no format of R97
  | unassignedOpcode (first : Byte) (op : Nat)  -- the format has no instruction with this opcode
  | fmt5Unassigned                 -- Format 5 with opcode 1111 or a wrong `i` (R91, D29)
  | fmt5StrayBits                  -- a `short` bit that is no option, or the wrong X (R85, R87, D28)
  | reservedLength                 -- `i` = 10 (R89, R99)
  | reservedMode                   -- `gen` = 10011, or an index over an index or an immediate (R95)
  | reservedDisplacement           -- a first displacement byte 11100000 (R95)
  | reservedAreg                   -- a dedicated-register code that R29 does not list
  | reservedStringOption           -- U/W = 10
deriving DecidableEq, Repr

/-- What a decoding step answers, as a rule with the bytes that are left. -/
abbrev Dec := Except DecodeError

/-- Take one byte. -/
def nextByte : List Byte → Dec (Byte × List Byte)
  | [] => .error .truncated
  | b :: bs => .ok (b, bs)

/-- The length an `i` field names; 10 names none (R89). -/
def IntLen.ofBits (c : BitVec 2) : Dec IntLen :=
  match c.toNat with
  | 0 => .ok .b
  | 1 => .ok .w
  | 3 => .ok .d
  | _ => .error .reservedLength

/-- The dedicated register a code names (R29). -/
def AReg.ofCode (c : BitVec 4) : Dec AReg :=
  match c.toNat with
  | 0 => .ok .upsr
  | 8 => .ok .fp
  | 9 => .ok .sp
  | 10 => .ok .sb
  | 13 => .ok .psr
  | 14 => .ok .intbase
  | 15 => .ok .mod
  | _ => .error .reservedAreg

/-- The U/W option a field names. -/
def StopRule.ofBits (c : BitVec 2) : Dec StopRule :=
  match c.toNat with
  | 0 => .ok .none
  | 1 => .ok .whileMatch
  | 3 => .ok .untilMatch
  | _ => .error .reservedStringOption

/-- Read a displacement (R95): its first bits give its length. -/
def takeDisp (bs : List Byte) : Dec (Disp × List Byte) := do
  let (b0, bs) ← nextByte bs
  if b0.getLsbD 7 = false then return (.one (b0.extractLsb' 0 7), bs)
  let (b1, bs) ← nextByte bs
  if b0.getLsbD 6 = false then return (.two (b0.extractLsb' 0 6 ++ b1), bs)
  if b0 = 0xE0#8 then throw .reservedDisplacement
  let (b2, bs) ← nextByte bs
  let (b3, bs) ← nextByte bs
  return (.four (b0.extractLsb' 0 6 ++ b1 ++ b2 ++ b3), bs)

/-- Read an immediate of `n` bytes, most significant first, onto what has been read. -/
def takeImm (acc : Quad) : Nat → List Byte → Dec (Quad × List Byte)
  | 0, bs => .ok (acc, bs)
  | n + 1, bs => do
    let (b, bs) ← nextByte bs
    takeImm (acc <<< 8 ||| b.setWidth 64) n bs

/-- A mode that has one displacement. -/
def withDisp (k : Disp → BaseMode) (bs : List Byte) : Dec (BaseMode × List Byte) := do
  let (d, bs) ← takeDisp bs
  return (k d, bs)

/-- A mode that has two displacements. -/
def withDisps (k : Disp → Disp → BaseMode) (bs : List Byte) : Dec (BaseMode × List Byte) := do
  let (d1, bs) ← takeDisp bs
  let (d2, bs) ← takeDisp bs
  return (k d1 d2, bs)

/-- Read the extension bytes of the mode with code `c`, for an operand of `n` bytes (R95). -/
def takeMode (c : BitVec 5) (n : Nat) (bs : List Byte) : Dec (BaseMode × List Byte) :=
  let r := Reg.ofCode (c.extractLsb' 0 3)
  match (c.extractLsb' 3 2).toNat with
  | 0 => .ok (.reg r, bs)
  | 1 => withDisp (.regRel r) bs
  | 2 =>
    match (c.extractLsb' 0 3).toNat with
    | 0 => withDisps (.memRel .fp) bs
    | 1 => withDisps (.memRel .sp) bs
    | 2 => withDisps (.memRel .sb) bs
    | 4 => do
      let (v, bs) ← takeImm 0 n bs
      return (.imm v, bs)
    | 5 => withDisp .absolute bs
    | 6 => withDisps .external bs
    | 7 => .ok (.tos, bs)
    | _ => .error .reservedMode
  | _ =>
    match (c.extractLsb' 0 3).toNat with
    | 0 => withDisp (.space .fp) bs
    | 1 => withDisp (.space .sp) bs
    | 2 => withDisp (.space .sb) bs
    | 3 => withDisp (.space .pc) bs
    | _ => .error .reservedMode

/-- A `gen` field with its index byte, if it has one: the base mode's code, and the index register and scale. -/
def takeIndex (c : BitVec 5) (bs : List Byte) : Dec ((BitVec 5 × Option (Reg × Scale)) × List Byte) :=
  if c.extractLsb' 2 3 = 0b111#3 then do
    let (b, bs) ← nextByte bs
    if b.extractLsb' 3 5 = 0b10100#5 then throw .reservedMode
    return ((b.extractLsb' 3 5, some (Reg.ofCode (b.extractLsb' 0 3), Scale.ofBits (c.extractLsb' 0 2))), bs)
  else .ok ((c, none), bs)

/-- Build the operand from its mode and its index. -/
def Gen.build (m : BaseMode) : Option (Reg × Scale) → Gen
  | none => .plain m
  | some (x, k) => .scaled m x k

/-- An instruction with one general operand of `n` bytes. -/
def decodeGen (k : Gen → Instr) (c : BitVec 5) (n : Nat) (bs : List Byte) : Dec (Instr × List Byte) := do
  let (h, bs) ← takeIndex c bs
  let (m, bs) ← takeMode h.1 n bs
  return (k (.build m h.2), bs)

/-- An instruction with two general operands: both index bytes come first (R82). -/
def decodeGens (k : Gen → Gen → Instr) (c1 c2 : BitVec 5) (n1 n2 : Nat) (bs : List Byte) : Dec (Instr × List Byte) := do
  let (h1, bs) ← takeIndex c1 bs
  let (h2, bs) ← takeIndex c2 bs
  let (m1, bs) ← takeMode h1.1 n1 bs
  let (m2, bs) ← takeMode h2.1 n2 bs
  return (k (.build m1 h1.2) (.build m2 h2.2), bs)

/-- An instruction whose last operand is a displacement of its own. -/
def decodeDisp (k : Disp → Instr) (bs : List Byte) : Dec (Instr × List Byte) := do
  let (d, bs) ← takeDisp bs
  return (k d, bs)

/-- Two general operands and then a displacement. -/
def decodeGensDisp (k : Gen → Gen → Disp → Instr) (c1 c2 : BitVec 5) (n1 n2 : Nat) (bs : List Byte) : Dec (Instr × List Byte) := do
  let (h1, bs) ← takeIndex c1 bs
  let (h2, bs) ← takeIndex c2 bs
  let (m1, bs) ← takeMode h1.1 n1 bs
  let (m2, bs) ← takeMode h2.1 n2 bs
  let (d, bs) ← takeDisp bs
  return (k (.build m1 h1.2) (.build m2 h2.2) d, bs)

/-- Two general operands and then the byte offset[7:5] length-1[4:0] of INSSi and EXTSi. -/
def decodeGensField (k : Gen → Gen → BitVec 3 → BitVec 5 → Instr) (c1 c2 : BitVec 5) (n : Nat) (bs : List Byte) :
    Dec (Instr × List Byte) := do
  let (h1, bs) ← takeIndex c1 bs
  let (h2, bs) ← takeIndex c2 bs
  let (m1, bs) ← takeMode h1.1 n bs
  let (m2, bs) ← takeMode h2.1 n bs
  let (b, bs) ← nextByte bs
  return (k (.build m1 h1.2) (.build m2 h2.2) (b.extractLsb' 5 3) (b.extractLsb' 0 5), bs)

/-- One general operand and then a displacement (ACBi). -/
def decodeGenDisp (k : Gen → Disp → Instr) (c : BitVec 5) (n : Nat) (bs : List Byte) : Dec (Instr × List Byte) := do
  let (h, bs) ← takeIndex c bs
  let (m, bs) ← takeMode h.1 n bs
  let (d, bs) ← takeDisp bs
  return (k (.build m h.2) d, bs)

/-- The instruction for the length of its `i` field. -/
def IntLen.pick {α : Type} (n : IntLen) (b w d : α) : α :=
  match n with
  | .b => b
  | .w => w
  | .d => d

/-- Format 0: Bcond and BR; the BR row is tried first (R99). -/
def decodeFmt0 (b0 : Byte) (bs : List Byte) : Dec (Instr × List Byte) :=
  if b0 = 0xEA#8 then decodeDisp .br bs else decodeDisp (.bcond (.ofCode (b0.extractLsb' 4 4))) bs

/-- Format 1 (R97). -/
def decodeFmt1 (b0 : Byte) (bs : List Byte) : Dec (Instr × List Byte) :=
  match (b0.extractLsb' 4 4).toNat with
  | 0 => decodeDisp .bsr bs
  | 1 => decodeDisp .ret bs
  | 2 => decodeDisp .cxp bs
  | 3 => decodeDisp .rxp bs
  | 4 => decodeDisp .rett bs
  | 5 => .ok (.reti, bs)
  | 6 => do
    let (l, bs) ← nextByte bs
    return (.save l, bs)
  | 7 => do
    let (l, bs) ← nextByte bs
    return (.restore l, bs)
  | 8 => do
    let (l, bs) ← nextByte bs
    decodeDisp (.enter l) bs
  | 9 => do
    let (l, bs) ← nextByte bs
    return (.exit l, bs)
  | 10 => .ok (.nop, bs)
  | 11 => .ok (.wait, bs)
  | 12 => .ok (.dia, bs)
  | 13 => .ok (.flag, bs)
  | 14 => .ok (.svc, bs)
  | _ => .ok (.bpt, bs)

/-- Format 3 (R97): `w` is the basic instruction; CXPD, JUMP and JSR have `i` = 11. -/
def decodeFmt3 (w : BitVec 16) (bs : List Byte) : Dec (Instr × List Byte) := do
  let n ← IntLen.ofBits (w.extractLsb' 0 2)
  let g := w.extractLsb' 11 5
  match (w.extractLsb' 7 4).toNat with
  | 0 => if n = .d then decodeGen .cxpd g 4 bs else throw (.unassignedOpcode (w.setWidth 8) 0)
  | 2 => decodeGen (n.pick .bicpsrb .bicpsrw .bicpsrd) g n.bytes bs
  | 4 => if n = .d then decodeGen .jump g 4 bs else throw (.unassignedOpcode (w.setWidth 8) 4)
  | 6 => decodeGen (n.pick .bispsrb .bispsrw .bispsrd) g n.bytes bs
  | 10 => decodeGen (n.pick .adjspb .adjspw .adjspd) g n.bytes bs
  | 12 => if n = .d then decodeGen .jsr g 4 bs else throw (.unassignedOpcode (w.setWidth 8) 12)
  | 14 => decodeGen (n.pick .caseb .casew .cased) g n.bytes bs
  | op => throw (.unassignedOpcode (w.setWidth 8) op)

/-- Formats 2 and 3 (R97): opcode 111 in bits 6..4 is Format 3. -/
def decodeFmt2 (w : BitVec 16) (bs : List Byte) : Dec (Instr × List Byte) := do
  let n ← IntLen.ofBits (w.extractLsb' 0 2)
  let g := w.extractLsb' 11 5
  let short := w.extractLsb' 7 4
  match (w.extractLsb' 4 3).toNat with
  | 0 => decodeGen (n.pick (.addqb short) (.addqw short) (.addqd short)) g n.bytes bs
  | 1 => decodeGen (n.pick (.cmpqb short) (.cmpqw short) (.cmpqd short)) g n.bytes bs
  | 2 => do
    let a ← AReg.ofCode short
    decodeGen (n.pick (.sprb a) (.sprw a) (.sprd a)) g n.bytes bs
  | 3 =>
    let c := Cond.ofCode short
    decodeGen (n.pick (.scondb c) (.scondw c) (.scondd c)) g n.bytes bs
  | 4 => decodeGenDisp (n.pick (.acbb short) (.acbw short) (.acbd short)) g n.bytes bs
  | 5 => decodeGen (n.pick (.movqb short) (.movqw short) (.movqd short)) g n.bytes bs
  | 6 => do
    let a ← AReg.ofCode short
    decodeGen (n.pick (.lprb a) (.lprw a) (.lprd a)) g n.bytes bs
  | _ => decodeFmt3 w bs

/-- Format 4 (R97). -/
def decodeFmt4 (w : BitVec 16) (bs : List Byte) : Dec (Instr × List Byte) := do
  let n ← IntLen.ofBits (w.extractLsb' 0 2)
  let c1 := w.extractLsb' 11 5
  let c2 := w.extractLsb' 6 5
  let two (k : Gen → Gen → Instr) : Dec (Instr × List Byte) := decodeGens k c1 c2 n.bytes n.bytes bs
  match (w.extractLsb' 2 4).toNat with
  | 0 => two (n.pick .addb .addw .addd)
  | 1 => two (n.pick .cmpb .cmpw .cmpd)
  | 2 => two (n.pick .bicb .bicw .bicd)
  | 4 => two (n.pick .addcb .addcw .addcd)
  | 5 => two (n.pick .movb .movw .movd)
  | 6 => two (n.pick .orb .orw .ord)
  | 8 => two (n.pick .subb .subw .subd)
  | 9 => if n = .d then two .addr else throw (.unassignedOpcode (w.setWidth 8) 9)
  | 10 => two (n.pick .andb .andw .andd)
  | 12 => two (n.pick .subcb .subcw .subcd)
  | 13 => two (n.pick .tbitb .tbitw .tbitd)
  | 14 => two (n.pick .xorb .xorw .xord)
  | op => throw (.unassignedOpcode (w.setWidth 8) op)

/-- The `short` bits of a Format 5 instruction that are set and are none of `allowed`. -/
def strayBits (w : BitVec 24) (allowed : List Nat) : Bool :=
  w &&& 0x078000#24 &&& ~~~(allowed.foldl (fun m b => m ||| optBit true b) 0#24) != 0#24

/-- A Format 5 instruction with no operands: its `i` must be `want` and no `short` bit may be set. -/
def decodePlain5 (w : BitVec 24) (want : BitVec 2) (i : Instr) (bs : List Byte) : Dec (Instr × List Byte) :=
  if w.extractLsb' 8 2 ≠ want then .error .fmt5Unassigned
  else if strayBits w [] then .error .fmt5StrayBits
  else .ok (i, bs)

/-- A BB instruction with options (R84, R85): `x` is the value its X bit must have. -/
def decodeBb (w : BitVec 24) (want : BitVec 2) (x : Bool) (k : Bool → Bool → Instr) (bs : List Byte) : Dec (Instr × List Byte) :=
  if w.extractLsb' 8 2 ≠ want then .error .fmt5Unassigned
  else if strayBits w [Config.bbDBit, Config.bbSBit, Config.bbXBit] || w.getLsbD Config.bbXBit != x then
    .error .fmt5StrayBits
  else .ok (k (w.getLsbD Config.bbDBit) (w.getLsbD Config.bbSBit), bs)

/-- A string instruction (R91): option T is bit 15 and `i` the length, with T as without it. The table's rows with T have
`i` = 00 only; that T goes with W and D too is the model's choice (log entry 34). -/
def decodeString (w : BitVec 24) (k : IntLen → Bool → StopRule → Instr) (kt : StringStep → StopRule → Instr)
    (bs : List Byte) : Dec (Instr × List Byte) := do
  let stop ← StopRule.ofBits (w.extractLsb' 17 2)
  let n ← IntLen.ofBits (w.extractLsb' 8 2)
  return (if w.getLsbD 15 then kt ⟨n, w.getLsbD 16⟩ stop else k n (w.getLsbD 16) stop, bs)

/-- MOVMP (R89): the `i` field names the length. -/
def decodeMovmp (w : BitVec 24) (bs : List Byte) : Dec (Instr × List Byte) :=
  let i := w.extractLsb' 8 2
  if i = Config.iMovmpb then decodePlain5 w Config.iMovmpb .movmpb bs
  else if i = Config.iMovmpw then decodePlain5 w Config.iMovmpw .movmpw bs
  else if i = Config.iMovmpd then decodePlain5 w Config.iMovmpd .movmpd bs
  else .error .reservedLength

/-- Format 5 (R80, R91). -/
def decodeFmt5 (w : BitVec 24) (bs : List Byte) : Dec (Instr × List Byte) :=
  let op := w.extractLsb' 10 4
  if w.extractLsb' 19 5 ≠ 0#5 ∨ w.getLsbD 14 = true then .error .fmt5StrayBits
  else if op = 0b0000#4 then decodeString w .movsi .movsti bs
  else if op = 0b0001#4 then decodeString w .cmpsi .cmpsti bs
  else if op = 0b0010#4 then
    if w.extractLsb' 8 2 = 0b11#2 then .ok (.setcfg (w.extractLsb' 15 4), bs) else .error .fmt5Unassigned
  else if op = 0b0011#4 then decodeString w .skpsi .skpsti bs
  else if op = Config.opBbstod then decodeBb w 0b01#2 false .bbstod bs
  else if op = Config.opExtblt then decodePlain5 w Config.iExtblt .extblt bs
  else if op = Config.opBbor then decodeBb w 0b01#2 false .bbor bs
  else if op = Config.opMovmp then decodeMovmp w bs
  else if op = Config.opBitwt then decodePlain5 w Config.iBitwt .bitwt bs
  else if op = Config.opTbits then
    if w.extractLsb' 8 2 ≠ Config.iTbits then .error .fmt5Unassigned
    else if strayBits w [Config.tbitsSBit] then .error .fmt5StrayBits
    else .ok (.tbits (w.getLsbD Config.tbitsSBit), bs)
  else if op = Config.opBband then decodeBb w 0b11#2 true .bband bs
  else if op = Config.opSbitps then decodePlain5 w Config.iSbitps .sbitps bs
  else if op = Config.opBbfor then decodePlain5 w 0b01#2 .bbfor bs
  else if op = Config.opSbits then decodePlain5 w Config.iSbits .sbits bs
  else if op = Config.opBbxor then decodeBb w 0b01#2 false .bbxor bs
  else .error .fmt5Unassigned

/-- Format 6 (R97). -/
def decodeFmt6 (w : BitVec 24) (bs : List Byte) : Dec (Instr × List Byte) := do
  let n ← IntLen.ofBits (w.extractLsb' 8 2)
  let two (k : IntLen → Gen → Gen → Instr) (n1 : Nat) : Dec (Instr × List Byte) :=
    decodeGens (k n) (w.extractLsb' 19 5) (w.extractLsb' 14 5) n1 n.bytes bs
  match (w.extractLsb' 10 4).toNat with
  | 0 => two .roti 1
  | 1 => two .ashi 1
  | 2 => two .cbiti n.bytes
  | 3 => two .cbitii n.bytes
  | 5 => two .lshi 1
  | 6 => two .sbiti n.bytes
  | 7 => two .sbitii n.bytes
  | 8 => two .negi n.bytes
  | 9 => two .noti n.bytes
  | 11 => two .subpi n.bytes
  | 12 => two .absi n.bytes
  | 13 => two .comi n.bytes
  | 14 => two .ibiti n.bytes
  | 15 => two .addpi n.bytes
  | op => throw (.unassignedOpcode 0x4E#8 op)

/-- Format 7 (R97). The `i` field of the extending moves is the length of the source. -/
def decodeFmt7 (w : BitVec 24) (bs : List Byte) : Dec (Instr × List Byte) := do
  let n ← IntLen.ofBits (w.extractLsb' 8 2)
  let c1 := w.extractLsb' 19 5
  let c2 := w.extractLsb' 14 5
  let two (k : IntLen → Gen → Gen → Instr) : Dec (Instr × List Byte) := decodeGens (k n) c1 c2 n.bytes n.bytes bs
  match (w.extractLsb' 10 4).toNat with
  | 0 => decodeGensDisp (.movmi n) c1 c2 n.bytes n.bytes bs
  | 1 => decodeGensDisp (.cmpmi n) c1 c2 n.bytes n.bytes bs
  | 2 => decodeGensField (.inssi n) c1 c2 n.bytes bs
  | 3 => decodeGensField (.extsi n) c1 c2 n.bytes bs
  | 4 => if n = .b then decodeGens .movxbw c1 c2 1 2 bs else throw (.unassignedOpcode 0xCE#8 4)
  | 5 => if n = .b then decodeGens .movzbw c1 c2 1 2 bs else throw (.unassignedOpcode 0xCE#8 5)
  | 6 =>
    match n with
    | .b => decodeGens .movzbd c1 c2 1 4 bs
    | .w => decodeGens .movzwd c1 c2 2 4 bs
    | .d => throw (.unassignedOpcode 0xCE#8 6)
  | 7 =>
    match n with
    | .b => decodeGens .movxbd c1 c2 1 4 bs
    | .w => decodeGens .movxwd c1 c2 2 4 bs
    | .d => throw (.unassignedOpcode 0xCE#8 7)
  | 8 => two .muli
  | 9 => two .meii
  | 11 => two .deii
  | 12 => two .quoi
  | 13 => two .remi
  | 14 => two .modi
  | 15 => two .divi
  | op => throw (.unassignedOpcode 0xCE#8 op)

/-- Format 8 (R97): the opcode is bit 10 and bits 7..6; 110 is MOVSUi with reg = 001 and MOVUSi with reg = 011, both removed
(R92). `i` = 10 is no length, for the removed two as for the others (R99, log entry 20). CVTP's `i` and FFSi's `reg` are not
used, and every value of them that R99 selects is accepted (log entry 49). -/
def decodeFmt8 (w : BitVec 24) (bs : List Byte) : Dec (Instr × List Byte) :=
  let c1 := w.extractLsb' 19 5
  let c2 := w.extractLsb' 14 5
  let r := w.extractLsb' 11 3
  let i := w.extractLsb' 8 2
  match (w.extractLsb' 10 1 ++ w.extractLsb' 6 2).toNat with
  | 0 => do
    let n ← IntLen.ofBits i
    decodeGensDisp (.exti n (.ofCode r)) c1 c2 n.bytes n.bytes bs
  | 1 => do
    let n ← IntLen.ofBits i
    decodeGens (.cvtp ⟨.ofCode r, n⟩) c1 c2 4 4 bs
  | 2 => do
    let n ← IntLen.ofBits i
    decodeGensDisp (.insi n (.ofCode r)) c1 c2 n.bytes n.bytes bs
  | 3 => do
    let n ← IntLen.ofBits i
    decodeGens (.checki n (.ofCode r)) c1 c2 n.bytes n.bytes bs
  | 4 => do
    let n ← IntLen.ofBits i
    decodeGens (.indexi n (.ofCode r)) c1 c2 n.bytes n.bytes bs
  | 5 => do
    let n ← IntLen.ofBits i
    decodeGens (.ffsi ⟨.ofCode r, n⟩) c1 c2 n.bytes 1 bs
  | 6 => do
    let _ ← IntLen.ofBits i
    if r = 1#3 then return (.movsui (w.extractLsb' 8 16), bs)
    else if r = 3#3 then return (.movusi (w.extractLsb' 8 16), bs)
    else throw (.unassignedOpcode (w.setWidth 8) 6)
  | op => .error (.unassignedOpcode (w.setWidth 8) op)

/-- Format 9 (R97). -/
def decodeFmt9 (w : BitVec 24) (bs : List Byte) : Dec (Instr × List Byte) := do
  let n ← IntLen.ofBits (w.extractLsb' 8 2)
  let f := FLen.ofBit (w.extractLsb' 10 1)
  let c1 := w.extractLsb' 19 5
  let c2 := w.extractLsb' 14 5
  match (w.extractLsb' 11 3).toNat with
  | 0 => decodeGens (.movif f n) c1 c2 n.bytes f.bytes bs
  | 1 => decodeGen (fun g => .lfsr f n g c2) c1 4 bs
  | 2 => decodeGens (.movlf f n) c1 c2 8 4 bs
  | 3 => decodeGens (.movfl f n) c1 c2 4 8 bs
  | 4 => decodeGens (.roundfi f n) c1 c2 f.bytes n.bytes bs
  | 5 => decodeGens (.truncfi f n) c1 c2 f.bytes n.bytes bs
  | 6 => decodeGen (fun g => .sfsr f n c1 g) c2 4 bs
  | _ => decodeGens (.floorfi f n) c1 c2 f.bytes n.bytes bs

/-- Formats 11 and 12 (R97): bit 9 is 0. -/
def decodeFmt11 (w : BitVec 24) (bs : List Byte) : Dec (Instr × List Byte) :=
  let f := FLen.ofBit (w.extractLsb' 8 1)
  let two (k : FLen → Gen → Gen → Instr) : Dec (Instr × List Byte) :=
    decodeGens (k f) (w.extractLsb' 19 5) (w.extractLsb' 14 5) f.bytes f.bytes bs
  if w.getLsbD 9 = true then .error (.unassignedOpcode (w.setWidth 8) 16)
  else if w.getLsbD 6 = false then
    match (w.extractLsb' 10 4).toNat with
    | 0 => two .addf
    | 1 => two .movf
    | 2 => two .cmpf
    | 4 => two .subf
    | 5 => two .negf
    | 8 => two .divf
    | 12 => two .mulf
    | 13 => two .absf
    | op => .error (.unassignedOpcode (w.setWidth 8) op)
  else
    match (w.extractLsb' 10 4).toNat with
    | 2 => two .polyf
    | 3 => two .dotf
    | 4 => two .scalbf
    | 5 => two .logbf
    | op => .error (.unassignedOpcode (w.setWidth 8) op)

/-- Format 14 (R92, R97): the four removed MMU instructions. Bit 14 of the instruction is 0 and `i` is not 10 (log entry 36). -/
def decodeFmt14 (w : Word16) (bs : List Byte) : Dec (Instr × List Byte) := do
  let _ ← IntLen.ofBits (w.extractLsb' 0 2)
  if w.getLsbD 6 then throw (.unassignedOpcode 0x1E#8 16)
  match opField w with
  | 0 => return (.rdval w, bs)
  | 1 => return (.wrval w, bs)
  | 2 => return (.lmr w, bs)
  | 3 => return (.smr w, bs)
  | op => throw (.unassignedOpcode 0x1E#8 op)

/-- Format 15 (R92, R99): every first byte 0x16, 0x36 and 0xB6 is a removed custom-slave instruction. The sub-opcodes
that tell them apart are the family's (log entry 36); one that names none goes with the group's first row. -/
def decodeFmt15 (b0 : Byte) (w : Word16) (bs : List Byte) : Dec (Instr × List Byte) :=
  match b0.toNat with
  | 0x16 =>
    match opField w with
    | 1 => .ok (.catst1 w, bs)
    | 2 => .ok (.lcr w, bs)
    | 3 => .ok (.scr w, bs)
    | _ => .ok (.catst0 w, bs)
  | 0x36 =>
    match opField w / 2 with
    | 0 => .ok (.ccv3ci w, bs)
    | 1 => .ok (.lcsr w, bs)
    | 2 => .ok (.ccv5qd w, bs)
    | 3 => .ok (.ccv4dq w, bs)
    | 4 => .ok (.ccv2ci w, bs)
    | 5 => .ok (.ccv1ci w, bs)
    | 6 => .ok (.scsr w, bs)
    | _ => .ok (.ccv0ci w, bs)
  | 0xB6 =>
    match opField w with
    | 1 => .ok (.cmov0c w, bs)
    | 2 => .ok (.ccmp0c w, bs)
    | 3 => .ok (.ccmp1c w, bs)
    | 4 => .ok (.ccal1c w, bs)
    | 5 => .ok (.cmov2c w, bs)
    | 8 => .ok (.ccal3c w, bs)
    | 9 => .ok (.cmov3c w, bs)
    | 12 => .ok (.ccal2c w, bs)
    | 13 => .ok (.cmov1c w, bs)
    | _ => .ok (.ccal0c w, bs)
  | _ => .error (.unassignedFormat b0)

/-- Take the second byte: the basic instruction of two bytes. -/
def takeWord2 (b0 : Byte) (bs : List Byte) : Dec ((BitVec 16) × List Byte) := do
  let (b1, bs) ← nextByte bs
  return (b1 ++ b0, bs)

/-- Take the second and third byte: the basic instruction of three bytes. -/
def takeWord3 (b0 : Byte) (bs : List Byte) : Dec ((BitVec 24) × List Byte) := do
  let (b1, bs) ← nextByte bs
  let (b2, bs) ← nextByte bs
  return (b2 ++ b1 ++ b0, bs)

/-- The decoder: the first byte determines the format (R82, R97). It answers the instruction and the bytes after it. -/
def decode (bytes : List Byte) : Dec (Instr × List Byte) := do
  let (b0, bs) ← nextByte bytes
  match (b0.extractLsb' 0 4).toNat with
  | 0x2 => decodeFmt1 b0 bs
  | 0x6 => do
    let (w, bs) ← takeWord3 b0 bs
    decodeFmt15 b0 (w.extractLsb' 8 16) bs
  | 0xA => decodeFmt0 b0 bs
  | 0xC | 0xD | 0xF => do
    let (w, bs) ← takeWord2 b0 bs
    decodeFmt2 w bs
  | 0xE => do
    let (w, bs) ← takeWord3 b0 bs
    match (b0.extractLsb' 4 4).toNat with
    | 0x0 => decodeFmt5 w bs
    | 0x1 => decodeFmt14 (w.extractLsb' 8 16) bs
    | 0x2 | 0x6 | 0xA | 0xE => decodeFmt8 w bs
    | 0x3 => decodeFmt9 w bs
    | 0x4 => decodeFmt6 w bs
    | 0xB | 0xF => decodeFmt11 w bs
    | 0xC => decodeFmt7 w bs
    | _ => throw (.unassignedFormat b0)
  | _ => do
    let (w, bs) ← takeWord2 b0 bs
    decodeFmt4 w bs

/-! ### The encoder -/

/-- The basic instruction (R83, R88, R92, R97). -/
def Instr.basic : Instr → List Byte
  | .bbor da inv => bytes3 (fmt5Word 0#4 Config.opBbor 0b01#2 ||| bbOpts da inv false)
  | .bbfor => bytes3 (fmt5Word 0#4 Config.opBbfor 0b01#2)
  | .bbxor da inv => bytes3 (fmt5Word 0#4 Config.opBbxor 0b01#2 ||| bbOpts da inv false)
  | .bband da inv => bytes3 (fmt5Word 0#4 Config.opBband 0b11#2 ||| bbOpts da inv true)
  | .bbstod da inv => bytes3 (fmt5Word 0#4 Config.opBbstod 0b01#2 ||| bbOpts da inv false)
  | .extblt => bytes3 (fmt5Word 0#4 Config.opExtblt Config.iExtblt)
  | .movmpb => bytes3 (fmt5Word 0#4 Config.opMovmp Config.iMovmpb)
  | .movmpw => bytes3 (fmt5Word 0#4 Config.opMovmp Config.iMovmpw)
  | .movmpd => bytes3 (fmt5Word 0#4 Config.opMovmp Config.iMovmpd)
  | .bitwt => bytes3 (fmt5Word 0#4 Config.opBitwt Config.iBitwt)
  | .tbits ones => bytes3 (fmt5Word 0#4 Config.opTbits Config.iTbits ||| optBit ones Config.tbitsSBit)
  | .sbitps => bytes3 (fmt5Word 0#4 Config.opSbitps Config.iSbitps)
  | .sbits => bytes3 (fmt5Word 0#4 Config.opSbits Config.iSbits)
  | .br _ => [0xEA#8]
  | .bcond cond _ => [cond.code ++ 0xA#4]
  | .bsr _ => [0x02#8]
  | .ret _ => [0x12#8]
  | .cxp _ => [0x22#8]
  | .rxp _ => [0x32#8]
  | .rett _ => [0x42#8]
  | .reti => [0x52#8]
  | .save _ => [0x62#8]
  | .restore _ => [0x72#8]
  | .enter _ _ => [0x82#8]
  | .exit _ => [0x92#8]
  | .nop => [0xA2#8]
  | .wait => [0xB2#8]
  | .dia => [0xC2#8]
  | .flag => [0xD2#8]
  | .svc => [0xE2#8]
  | .bpt => [0xF2#8]
  | .addqb q dst => bytes2 (fmt2Word dst.code q 0b000#3 0b00#2)
  | .addqw q dst => bytes2 (fmt2Word dst.code q 0b000#3 0b01#2)
  | .addqd q dst => bytes2 (fmt2Word dst.code q 0b000#3 0b11#2)
  | .cmpqb q src => bytes2 (fmt2Word src.code q 0b001#3 0b00#2)
  | .cmpqw q src => bytes2 (fmt2Word src.code q 0b001#3 0b01#2)
  | .cmpqd q src => bytes2 (fmt2Word src.code q 0b001#3 0b11#2)
  | .sprb areg dst => bytes2 (fmt2Word dst.code areg.code 0b010#3 0b00#2)
  | .sprw areg dst => bytes2 (fmt2Word dst.code areg.code 0b010#3 0b01#2)
  | .sprd areg dst => bytes2 (fmt2Word dst.code areg.code 0b010#3 0b11#2)
  | .scondb cond dst => bytes2 (fmt2Word dst.code cond.code 0b011#3 0b00#2)
  | .scondw cond dst => bytes2 (fmt2Word dst.code cond.code 0b011#3 0b01#2)
  | .scondd cond dst => bytes2 (fmt2Word dst.code cond.code 0b011#3 0b11#2)
  | .acbb q idx _ => bytes2 (fmt2Word idx.code q 0b100#3 0b00#2)
  | .acbw q idx _ => bytes2 (fmt2Word idx.code q 0b100#3 0b01#2)
  | .acbd q idx _ => bytes2 (fmt2Word idx.code q 0b100#3 0b11#2)
  | .movqb q dst => bytes2 (fmt2Word dst.code q 0b101#3 0b00#2)
  | .movqw q dst => bytes2 (fmt2Word dst.code q 0b101#3 0b01#2)
  | .movqd q dst => bytes2 (fmt2Word dst.code q 0b101#3 0b11#2)
  | .lprb areg src => bytes2 (fmt2Word src.code areg.code 0b110#3 0b00#2)
  | .lprw areg src => bytes2 (fmt2Word src.code areg.code 0b110#3 0b01#2)
  | .lprd areg src => bytes2 (fmt2Word src.code areg.code 0b110#3 0b11#2)
  | .cxpd desc => bytes2 (fmt3Word desc.code 0b0000#4 0b11#2)
  | .bicpsrb src => bytes2 (fmt3Word src.code 0b0010#4 0b00#2)
  | .bicpsrw src => bytes2 (fmt3Word src.code 0b0010#4 0b01#2)
  | .bicpsrd src => bytes2 (fmt3Word src.code 0b0010#4 0b11#2)
  | .jump dst => bytes2 (fmt3Word dst.code 0b0100#4 0b11#2)
  | .bispsrb src => bytes2 (fmt3Word src.code 0b0110#4 0b00#2)
  | .bispsrw src => bytes2 (fmt3Word src.code 0b0110#4 0b01#2)
  | .bispsrd src => bytes2 (fmt3Word src.code 0b0110#4 0b11#2)
  | .adjspb src => bytes2 (fmt3Word src.code 0b1010#4 0b00#2)
  | .adjspw src => bytes2 (fmt3Word src.code 0b1010#4 0b01#2)
  | .adjspd src => bytes2 (fmt3Word src.code 0b1010#4 0b11#2)
  | .jsr dst => bytes2 (fmt3Word dst.code 0b1100#4 0b11#2)
  | .caseb src => bytes2 (fmt3Word src.code 0b1110#4 0b00#2)
  | .casew src => bytes2 (fmt3Word src.code 0b1110#4 0b01#2)
  | .cased src => bytes2 (fmt3Word src.code 0b1110#4 0b11#2)
  | .addb src dst => bytes2 (fmt4Word src.code dst.code 0b0000#4 0b00#2)
  | .addw src dst => bytes2 (fmt4Word src.code dst.code 0b0000#4 0b01#2)
  | .addd src dst => bytes2 (fmt4Word src.code dst.code 0b0000#4 0b11#2)
  | .cmpb src1 src2 => bytes2 (fmt4Word src1.code src2.code 0b0001#4 0b00#2)
  | .cmpw src1 src2 => bytes2 (fmt4Word src1.code src2.code 0b0001#4 0b01#2)
  | .cmpd src1 src2 => bytes2 (fmt4Word src1.code src2.code 0b0001#4 0b11#2)
  | .bicb src dst => bytes2 (fmt4Word src.code dst.code 0b0010#4 0b00#2)
  | .bicw src dst => bytes2 (fmt4Word src.code dst.code 0b0010#4 0b01#2)
  | .bicd src dst => bytes2 (fmt4Word src.code dst.code 0b0010#4 0b11#2)
  | .addcb src dst => bytes2 (fmt4Word src.code dst.code 0b0100#4 0b00#2)
  | .addcw src dst => bytes2 (fmt4Word src.code dst.code 0b0100#4 0b01#2)
  | .addcd src dst => bytes2 (fmt4Word src.code dst.code 0b0100#4 0b11#2)
  | .movb src dst => bytes2 (fmt4Word src.code dst.code 0b0101#4 0b00#2)
  | .movw src dst => bytes2 (fmt4Word src.code dst.code 0b0101#4 0b01#2)
  | .movd src dst => bytes2 (fmt4Word src.code dst.code 0b0101#4 0b11#2)
  | .orb src dst => bytes2 (fmt4Word src.code dst.code 0b0110#4 0b00#2)
  | .orw src dst => bytes2 (fmt4Word src.code dst.code 0b0110#4 0b01#2)
  | .ord src dst => bytes2 (fmt4Word src.code dst.code 0b0110#4 0b11#2)
  | .subb src dst => bytes2 (fmt4Word src.code dst.code 0b1000#4 0b00#2)
  | .subw src dst => bytes2 (fmt4Word src.code dst.code 0b1000#4 0b01#2)
  | .subd src dst => bytes2 (fmt4Word src.code dst.code 0b1000#4 0b11#2)
  | .addr src dst => bytes2 (fmt4Word src.code dst.code 0b1001#4 0b11#2)
  | .andb src dst => bytes2 (fmt4Word src.code dst.code 0b1010#4 0b00#2)
  | .andw src dst => bytes2 (fmt4Word src.code dst.code 0b1010#4 0b01#2)
  | .andd src dst => bytes2 (fmt4Word src.code dst.code 0b1010#4 0b11#2)
  | .subcb src dst => bytes2 (fmt4Word src.code dst.code 0b1100#4 0b00#2)
  | .subcw src dst => bytes2 (fmt4Word src.code dst.code 0b1100#4 0b01#2)
  | .subcd src dst => bytes2 (fmt4Word src.code dst.code 0b1100#4 0b11#2)
  | .tbitb off base => bytes2 (fmt4Word off.code base.code 0b1101#4 0b00#2)
  | .tbitw off base => bytes2 (fmt4Word off.code base.code 0b1101#4 0b01#2)
  | .tbitd off base => bytes2 (fmt4Word off.code base.code 0b1101#4 0b11#2)
  | .xorb src dst => bytes2 (fmt4Word src.code dst.code 0b1110#4 0b00#2)
  | .xorw src dst => bytes2 (fmt4Word src.code dst.code 0b1110#4 0b01#2)
  | .xord src dst => bytes2 (fmt4Word src.code dst.code 0b1110#4 0b11#2)
  | .movsi len back stop => bytes3 (fmt5Word (stringOpts stop back false) 0b0000#4 len.bits)
  | .movsti step stop => bytes3 (fmt5Word (stringOpts stop step.back true) 0b0000#4 step.len.bits)
  | .cmpsi len back stop => bytes3 (fmt5Word (stringOpts stop back false) 0b0001#4 len.bits)
  | .cmpsti step stop => bytes3 (fmt5Word (stringOpts stop step.back true) 0b0001#4 step.len.bits)
  | .setcfg opts => bytes3 (fmt5Word opts 0b0010#4 0b11#2)
  | .skpsi len back stop => bytes3 (fmt5Word (stringOpts stop back false) 0b0011#4 len.bits)
  | .skpsti step stop => bytes3 (fmt5Word (stringOpts stop step.back true) 0b0011#4 step.len.bits)
  | .roti len cnt dst => bytes3 (fmt6Word cnt.code dst.code 0b0000#4 len.bits 0x4E#8)
  | .ashi len cnt dst => bytes3 (fmt6Word cnt.code dst.code 0b0001#4 len.bits 0x4E#8)
  | .cbiti len off base => bytes3 (fmt6Word off.code base.code 0b0010#4 len.bits 0x4E#8)
  | .cbitii len off base => bytes3 (fmt6Word off.code base.code 0b0011#4 len.bits 0x4E#8)
  | .lshi len cnt dst => bytes3 (fmt6Word cnt.code dst.code 0b0101#4 len.bits 0x4E#8)
  | .sbiti len off base => bytes3 (fmt6Word off.code base.code 0b0110#4 len.bits 0x4E#8)
  | .sbitii len off base => bytes3 (fmt6Word off.code base.code 0b0111#4 len.bits 0x4E#8)
  | .negi len src dst => bytes3 (fmt6Word src.code dst.code 0b1000#4 len.bits 0x4E#8)
  | .noti len src dst => bytes3 (fmt6Word src.code dst.code 0b1001#4 len.bits 0x4E#8)
  | .subpi len src dst => bytes3 (fmt6Word src.code dst.code 0b1011#4 len.bits 0x4E#8)
  | .absi len src dst => bytes3 (fmt6Word src.code dst.code 0b1100#4 len.bits 0x4E#8)
  | .comi len src dst => bytes3 (fmt6Word src.code dst.code 0b1101#4 len.bits 0x4E#8)
  | .ibiti len off base => bytes3 (fmt6Word off.code base.code 0b1110#4 len.bits 0x4E#8)
  | .addpi len src dst => bytes3 (fmt6Word src.code dst.code 0b1111#4 len.bits 0x4E#8)
  | .movmi len src dst _ => bytes3 (fmt6Word src.code dst.code 0b0000#4 len.bits 0xCE#8)
  | .cmpmi len src1 src2 _ => bytes3 (fmt6Word src1.code src2.code 0b0001#4 len.bits 0xCE#8)
  | .inssi len src base _ _ => bytes3 (fmt6Word src.code base.code 0b0010#4 len.bits 0xCE#8)
  | .extsi len base dst _ _ => bytes3 (fmt6Word base.code dst.code 0b0011#4 len.bits 0xCE#8)
  | .muli len src dst => bytes3 (fmt6Word src.code dst.code 0b1000#4 len.bits 0xCE#8)
  | .meii len src dst => bytes3 (fmt6Word src.code dst.code 0b1001#4 len.bits 0xCE#8)
  | .deii len src dst => bytes3 (fmt6Word src.code dst.code 0b1011#4 len.bits 0xCE#8)
  | .quoi len src dst => bytes3 (fmt6Word src.code dst.code 0b1100#4 len.bits 0xCE#8)
  | .remi len src dst => bytes3 (fmt6Word src.code dst.code 0b1101#4 len.bits 0xCE#8)
  | .modi len src dst => bytes3 (fmt6Word src.code dst.code 0b1110#4 len.bits 0xCE#8)
  | .divi len src dst => bytes3 (fmt6Word src.code dst.code 0b1111#4 len.bits 0xCE#8)
  | .movxbw src dst => bytes3 (fmt6Word src.code dst.code 0b0100#4 0b00#2 0xCE#8)
  | .movzbw src dst => bytes3 (fmt6Word src.code dst.code 0b0101#4 0b00#2 0xCE#8)
  | .movzbd src dst => bytes3 (fmt6Word src.code dst.code 0b0110#4 0b00#2 0xCE#8)
  | .movzwd src dst => bytes3 (fmt6Word src.code dst.code 0b0110#4 0b01#2 0xCE#8)
  | .movxbd src dst => bytes3 (fmt6Word src.code dst.code 0b0111#4 0b00#2 0xCE#8)
  | .movxwd src dst => bytes3 (fmt6Word src.code dst.code 0b0111#4 0b01#2 0xCE#8)
  | .exti len off base dst _ => bytes3 (fmt8Word base.code dst.code off.code 0b0#1 len.bits 0b00#2)
  | .cvtp f base dst => bytes3 (fmt8Word base.code dst.code f.reg.code 0b0#1 f.len.bits 0b01#2)
  | .insi len off src base _ => bytes3 (fmt8Word src.code base.code off.code 0b0#1 len.bits 0b10#2)
  | .checki len dst bounds src => bytes3 (fmt8Word bounds.code src.code dst.code 0b0#1 len.bits 0b11#2)
  | .indexi len accum size idx => bytes3 (fmt8Word size.code idx.code accum.code 0b1#1 len.bits 0b00#2)
  | .ffsi f base off => bytes3 (fmt8Word base.code off.code f.reg.code 0b1#1 f.len.bits 0b01#2)
  | .movif fl len src dst => bytes3 (fmt9Word src.code dst.code 0b000#3 fl.bit len.bits)
  | .lfsr fl len src spare => bytes3 (fmt9Word src.code spare 0b001#3 fl.bit len.bits)
  | .movlf fl len src dst => bytes3 (fmt9Word src.code dst.code 0b010#3 fl.bit len.bits)
  | .movfl fl len src dst => bytes3 (fmt9Word src.code dst.code 0b011#3 fl.bit len.bits)
  | .roundfi fl len src dst => bytes3 (fmt9Word src.code dst.code 0b100#3 fl.bit len.bits)
  | .truncfi fl len src dst => bytes3 (fmt9Word src.code dst.code 0b101#3 fl.bit len.bits)
  | .sfsr fl len spare dst => bytes3 (fmt9Word spare dst.code 0b110#3 fl.bit len.bits)
  | .floorfi fl len src dst => bytes3 (fmt9Word src.code dst.code 0b111#3 fl.bit len.bits)
  | .addf fl src dst => bytes3 (fmt6Word src.code dst.code 0b0000#4 (0#1 ++ fl.bit) 0xBE#8)
  | .movf fl src dst => bytes3 (fmt6Word src.code dst.code 0b0001#4 (0#1 ++ fl.bit) 0xBE#8)
  | .cmpf fl src1 src2 => bytes3 (fmt6Word src1.code src2.code 0b0010#4 (0#1 ++ fl.bit) 0xBE#8)
  | .subf fl src dst => bytes3 (fmt6Word src.code dst.code 0b0100#4 (0#1 ++ fl.bit) 0xBE#8)
  | .negf fl src dst => bytes3 (fmt6Word src.code dst.code 0b0101#4 (0#1 ++ fl.bit) 0xBE#8)
  | .divf fl src dst => bytes3 (fmt6Word src.code dst.code 0b1000#4 (0#1 ++ fl.bit) 0xBE#8)
  | .mulf fl src dst => bytes3 (fmt6Word src.code dst.code 0b1100#4 (0#1 ++ fl.bit) 0xBE#8)
  | .absf fl src dst => bytes3 (fmt6Word src.code dst.code 0b1101#4 (0#1 ++ fl.bit) 0xBE#8)
  | .polyf fl src1 src2 => bytes3 (fmt6Word src1.code src2.code 0b0010#4 (0#1 ++ fl.bit) 0xFE#8)
  | .dotf fl src1 src2 => bytes3 (fmt6Word src1.code src2.code 0b0011#4 (0#1 ++ fl.bit) 0xFE#8)
  | .scalbf fl src dst => bytes3 (fmt6Word src.code dst.code 0b0100#4 (0#1 ++ fl.bit) 0xFE#8)
  | .logbf fl src dst => bytes3 (fmt6Word src.code dst.code 0b0101#4 (0#1 ++ fl.bit) 0xFE#8)
  | .rdval word => 0x1E#8 :: bytes2 word
  | .wrval word => 0x1E#8 :: bytes2 word
  | .lmr word => 0x1E#8 :: bytes2 word
  | .smr word => 0x1E#8 :: bytes2 word
  | .movsui word => 0xAE#8 :: bytes2 word
  | .movusi word => 0xAE#8 :: bytes2 word
  | .catst0 word => 0x16#8 :: bytes2 word
  | .catst1 word => 0x16#8 :: bytes2 word
  | .lcr word => 0x16#8 :: bytes2 word
  | .scr word => 0x16#8 :: bytes2 word
  | .ccv0ci word => 0x36#8 :: bytes2 word
  | .ccv1ci word => 0x36#8 :: bytes2 word
  | .ccv2ci word => 0x36#8 :: bytes2 word
  | .ccv3ci word => 0x36#8 :: bytes2 word
  | .ccv4dq word => 0x36#8 :: bytes2 word
  | .ccv5qd word => 0x36#8 :: bytes2 word
  | .lcsr word => 0x36#8 :: bytes2 word
  | .scsr word => 0x36#8 :: bytes2 word
  | .ccal0c word => 0xB6#8 :: bytes2 word
  | .ccal1c word => 0xB6#8 :: bytes2 word
  | .ccal2c word => 0xB6#8 :: bytes2 word
  | .ccal3c word => 0xB6#8 :: bytes2 word
  | .cmov0c word => 0xB6#8 :: bytes2 word
  | .cmov1c word => 0xB6#8 :: bytes2 word
  | .cmov2c word => 0xB6#8 :: bytes2 word
  | .cmov3c word => 0xB6#8 :: bytes2 word
  | .ccmp0c word => 0xB6#8 :: bytes2 word
  | .ccmp1c word => 0xB6#8 :: bytes2 word

/-- The operands that follow the general operands: a displacement, a register list, the field byte of INSSi and EXTSi
(R82). -/
def Instr.tail : Instr → List Byte
  | .bbor _ _ | .bbfor | .bbxor _ _ | .bband _ _ | .bbstod _ _ | .extblt | .movmpb | .movmpw | .movmpd | .bitwt
  | .tbits _ | .sbitps | .sbits | .reti | .nop | .wait | .dia | .flag | .svc | .bpt | .addqb _ _ | .addqw _ _
  | .addqd _ _ | .cmpqb _ _ | .cmpqw _ _ | .cmpqd _ _ | .sprb _ _ | .sprw _ _ | .sprd _ _ | .scondb _ _ | .scondw _ _
  | .scondd _ _ | .movqb _ _ | .movqw _ _ | .movqd _ _ | .lprb _ _ | .lprw _ _ | .lprd _ _ | .cxpd _ | .bicpsrb _
  | .bicpsrw _ | .bicpsrd _ | .jump _ | .bispsrb _ | .bispsrw _ | .bispsrd _ | .adjspb _ | .adjspw _ | .adjspd _
  | .jsr _ | .caseb _ | .casew _ | .cased _ | .addb _ _ | .addw _ _ | .addd _ _ | .cmpb _ _ | .cmpw _ _ | .cmpd _ _
  | .bicb _ _ | .bicw _ _ | .bicd _ _ | .addcb _ _ | .addcw _ _ | .addcd _ _ | .movb _ _ | .movw _ _ | .movd _ _
  | .orb _ _ | .orw _ _ | .ord _ _ | .subb _ _ | .subw _ _ | .subd _ _ | .addr _ _ | .andb _ _ | .andw _ _
  | .andd _ _ | .subcb _ _ | .subcw _ _ | .subcd _ _ | .tbitb _ _ | .tbitw _ _ | .tbitd _ _ | .xorb _ _ | .xorw _ _
  | .xord _ _ | .movsi _ _ _ | .movsti _ _ | .cmpsi _ _ _ | .cmpsti _ _ | .setcfg _ | .skpsi _ _ _ | .skpsti _ _
  | .roti _ _ _ | .ashi _ _ _ | .cbiti _ _ _ | .cbitii _ _ _ | .lshi _ _ _ | .sbiti _ _ _ | .sbitii _ _ _
  | .negi _ _ _ | .noti _ _ _ | .subpi _ _ _ | .absi _ _ _ | .comi _ _ _ | .ibiti _ _ _ | .addpi _ _ _ | .muli _ _ _
  | .meii _ _ _ | .deii _ _ _ | .quoi _ _ _ | .remi _ _ _ | .modi _ _ _ | .divi _ _ _ | .movxbw _ _ | .movzbw _ _
  | .movzbd _ _ | .movzwd _ _ | .movxbd _ _ | .movxwd _ _ | .cvtp _ _ _ | .checki _ _ _ _ | .indexi _ _ _ _
  | .ffsi _ _ _ | .movif _ _ _ _ | .lfsr _ _ _ _ | .movlf _ _ _ _ | .movfl _ _ _ _ | .roundfi _ _ _ _
  | .truncfi _ _ _ _ | .sfsr _ _ _ _ | .floorfi _ _ _ _ | .addf _ _ _ | .movf _ _ _ | .cmpf _ _ _ | .subf _ _ _
  | .negf _ _ _ | .divf _ _ _ | .mulf _ _ _ | .absf _ _ _ | .polyf _ _ _ | .dotf _ _ _ | .scalbf _ _ _ | .logbf _ _ _
  | .rdval _ | .wrval _ | .lmr _ | .smr _ | .movsui _ | .movusi _ | .catst0 _ | .catst1 _ | .lcr _ | .scr _
  | .ccv0ci _ | .ccv1ci _ | .ccv2ci _ | .ccv3ci _ | .ccv4dq _ | .ccv5qd _ | .lcsr _ | .scsr _ | .ccal0c _ | .ccal1c _
  | .ccal2c _ | .ccal3c _ | .cmov0c _ | .cmov1c _ | .cmov2c _ | .cmov3c _ | .ccmp0c _ | .ccmp1c _ => []
  | .br d | .bcond _ d | .bsr d | .ret d | .cxp d | .rxp d | .rett d | .acbb _ _ d | .acbw _ _ d | .acbd _ _ d
  | .movmi _ _ _ d | .cmpmi _ _ _ d | .exti _ _ _ _ d | .insi _ _ _ _ d => d.encode
  | .save l | .restore l | .exit l => [l]
  | .enter l d => l :: d.encode
  | .inssi _ _ _ off size | .extsi _ _ _ off size => [off ++ size]

/-- The encoder: the basic instruction, the index bytes, the operands' extensions, the implied operands (R82). -/
def encode (i : Instr) : List Byte :=
  i.basic ++ i.operands.flatMap (fun o => o.gen.indexBytes) ++ i.operands.flatMap (fun o => o.gen.extBytes o.bytes) ++ i.tail

/-- The bytes of extension that an operand adds to the instruction. -/
def Operand.extLen (o : Operand) : Nat := o.gen.indexBytes.length + (o.gen.extBytes o.bytes).length

/-- The length of an instruction in bytes. -/
def Instr.size (i : Instr) : Nat := i.basic.length + (i.operands.map Operand.extLen).sum + i.tail.length

/-- No instruction is longer than this: three basic bytes, two index bytes, two operands with eight bytes of
extension each and a displacement of four bytes. -/
def maxInstrBytes : Nat := 25

/-- The low `n` bytes of a number, least significant first. -/
def littleEndian (w : Nat) : Nat → List Byte
  | 0 => []
  | n + 1 => BitVec.ofNat 8 w :: littleEndian (w / 256) n

/-- The bytes of an instruction whose first `nbits` bits are `w`, every further bit 0, up to the longest instruction. -/
def tableBytes (nbits w : Nat) : List Byte := littleEndian (w % 2 ^ nbits) maxInstrBytes

/-- The instruction the decoder reads from the opcode table's word `w` of `nbits` bits. -/
def decodeTableWord (nbits w : Nat) : Option Instr :=
  match decode (tableBytes nbits w) with
  | .ok (i, _) => some i
  | .error _ => none

end Sys2Proof
end

