-- ==== Sys2Proof/Machine/State.lean ====
section
/-! DEFINITION. The machine's state as plain data: every piece of state the spec gives the NS32CG16 (10_state.md, and
60_exceptions.md for the bits of PSR), the machine right after reset, and the ways a step can stop. INVENTORY.md lists
each field with its rule and its reset value. -/

namespace Sys2Proof.Machine

/-- The eight general registers, 32 bits each (R20). -/
structure Regs where
  r0 : Dword
  r1 : Dword
  r2 : Dword
  r3 : Dword
  r4 : Dword
  r5 : Dword
  r6 : Dword
  r7 : Dword
deriving DecidableEq, Repr

/-- The eight Long registers of the floating-point unit (R34); F0 and F1 are the halves of L0, F2 and F3 of L2, F4 and F5
of L4, F6 and F7 of L6. Log entry 19. -/
structure FRegs where
  l0 : Quad
  l1 : Quad
  l2 : Quad
  l3 : Quad
  l4 : Quad
  l5 : Quad
  l6 : Quad
  l7 : Quad
deriving DecidableEq, Repr

/-- The state of the machine. -/
structure State where
  regs : Regs             -- R0..R7 (R20)
  pc : Dword              -- program counter (R25): the address of the instruction's first byte
  fp : Dword              -- frame pointer (R22)
  sp0 : Dword             -- interrupt stack pointer: SP when PSR.S = 0 (R23)
  sp1 : Dword             -- user stack pointer: SP when PSR.S = 1 (R23)
  sb : Dword              -- static base (R24)
  intbase : Dword         -- interrupt dispatch table base (R29)
  mod : Word16            -- address of the current module-table entry (R29)
  psr : Word16            -- processor status register (R26 to R28); bits 12..15 are 0 (log entry 33)
  cfg : BitVec 4          -- configuration register: I, F, M, C in bits 0..3 (R32, R33)
  fregs : FRegs           -- floating-point registers (R34)
  fsr : Dword             -- floating-point status register (R34)
  bbMask : Dword          -- BBSTOD's internal second mask (R36)
  nbpu : Bool             -- the NBPU output is asserted (R39, R152)
  bpu : Nat               -- the state of the external BPU (R39, R150), a token
  waiting : Bool          -- WAIT was executed and no interrupt has come (R444). Log entry 14
  mem : List Host.Cell    -- memory (R40, R57, R58): an unlisted address reads as 0 (log entry 8)
  unflushed : List Nat    -- bytes stored to since the instruction queue was last flushed (R38, R66)
  freeIdx : Nat           -- the model's own: how many open values have been drawn (log entry 17)
deriving DecidableEq, Repr

/-- Why the machine stops with a fault. Each is safe: the hardware does something the spec does not give. -/
inductive Fault where
  /-- Raised by an instruction whose destination operand is Immediate, which R401 calls illegal. Safe. -/
  | immediateDestination
  /-- Raised by an instruction that wants an address and is given a register or an immediate (R418). Safe. -/
  | notMemoryMode
  /-- Raised by MEIi and DEIi on an odd register, which begins no register pair (log entry 35). Safe. -/
  | oddRegisterPair
deriving DecidableEq, Repr

/-- Why the model refuses a step (R445). Each is safe: the model declines to go on where the spec declines. -/
inductive Refusal where
  /-- Raised by Dispatch.exec for an instruction that has no meaning yet. Safe. -/
  | notModelled (mnemonic : String)
  /-- Raised by any access at or above 2^24 under ADDR_HIGH = refuse (R59). Safe. -/
  | addressHigh (address : Dword)
  /-- Raised by the fetch of a byte stored to since the last flush of the instruction queue (R66, D18). Safe. -/
  | staleFetch
  /-- Raised by the fetch of bytes that are no instruction (R85, R87, R91, R99). Safe. -/
  | undecodable (error : DecodeError)
  /-- Raised by the BB series and BITWT when the shift is above 15 (R112 item 2, R142 item 2). Safe. -/
  | shiftOutOfRange
  /-- Raised by the BB series and BITWT when PSR.L is not what CMPB R2,0 leaves (R112 item 1, R142 item 1). Safe. -/
  | lFlagMismatch
  /-- Raised by the BB series when R4 or R5 has a bit above 15 (R112 item 3). Safe. -/
  | maskHighBits
  /-- Raised by the BB series when PSR.J or PSR.K is set (R112 item 4, R128). Safe. -/
  | jkSet
  /-- Raised by the BB series and EXTBLT when the height in R3 is 0 (R116, R147 item 4). Safe. -/
  | heightZero
  /-- Raised by the BB series when the width at 0(SP) is 0 (R116). Safe. -/
  | widthZero
  /-- Raised by EXTBLT when no BPU is fitted (R147 item 1). Safe. -/
  | bpuAbsent
  /-- Raised by EXTBLT when R4 is neither 2 nor -2 (R147 item 2). Safe. -/
  | horizontalIncrement
  /-- Raised by EXTBLT when R2 is 0, odd or of the other sign than R4 (R147 item 3). Safe. -/
  | extbltWidth
  /-- Raised by EXTBLT when R0, R1, R6 or R7 is odd (R54, R147 item 5). Safe. -/
  | oddAddress
  /-- Raised by MOVMi and CMPMi when the displacement, the count less one, is negative (log entry 18). Safe. -/
  | blockLength
deriving DecidableEq, Repr

/-- The machine right after reset. The family clears PC, PSR and CFG (R460); every other value is the model's
(INVENTORY.md, log entries 5 to 8). -/
def State.reset : State where
  regs := ⟨0#32, 0#32, 0#32, 0#32, 0#32, 0#32, 0#32, 0#32⟩
  pc := 0#32
  fp := 0#32
  sp0 := Config.resetSp
  sp1 := Config.resetSp
  sb := 0#32
  intbase := 0#32
  mod := 0#16
  psr := 0#16
  cfg := 0#4
  fregs := ⟨0#64, 0#64, 0#64, 0#64, 0#64, 0#64, 0#64, 0#64⟩
  fsr := 0#32
  bbMask := 0#32
  nbpu := false
  bpu := 0
  waiting := false
  mem := []
  unflushed := []
  freeIdx := 0

end Sys2Proof.Machine
end

