-- ==== Sys2Proof/Machine/Flags.lean ====
section
/-! DEFINITION. The bits of PSR (R26 to R28), reading and writing them, every flag computation of the instructions
(R402, R407 to R409), and the conditions of Bcond and Scond (R416). -/

namespace Sys2Proof.Machine

/-- The named bits of PSR (R28). -/
inductive Flag where
  | c | t | l | k | j | f | z | n | u | s | p | i
deriving DecidableEq, Repr

/-- The place of a flag in PSR (R28); which of bits 3 and 4 is J and which is K is of low confidence, and nothing
depends on it (log entry 39). -/
def Flag.bit : Flag → Nat
  | .c => 0 | .t => 1 | .l => 2 | .k => 3 | .j => 4 | .f => 5 | .z => 6 | .n => 7 | .u => 8 | .s => 9 | .p => 10
  | .i => 11

/-- PSR with one flag at a value. -/
def putFlag (psr : Word16) (fl : Flag) (b : Bool) : Word16 :=
  if b then psr ||| 1#16 <<< fl.bit else psr &&& ~~~(1#16 <<< fl.bit)

/-- The bits of PSR that exist: bits 12..15 are reserved and read as 0 (R28). Log entry 33. -/
def psrDefined : Word16 := 0x0FFF#16

/-- The value of a flag. -/
def State.flag (s : State) (fl : Flag) : Bool := s.psr.getLsbD fl.bit

/-- Write one flag. -/
def State.setFlag (s : State) (fl : Flag) (b : Bool) : State := { s with psr := putFlag s.psr fl b }

/-- Write the whole PSR; the reserved bits stay 0. -/
def State.setPsr (s : State) (v : Word16) : State := { s with psr := v &&& psrDefined }

/-! ### Flag computations, on the exact integers -/

/-- Carry out of the top bit of `a + b + cin` (R407). -/
def addCarry {w : Nat} (a b : BitVec w) (cin : Bool) : Bool := decide (2 ^ w ≤ a.toNat + b.toNat + cin.toNat)

/-- An integer fits `w` bits as a signed number. -/
def fitsSigned (w : Nat) (v : Int) : Bool := decide (-(2 : Int) ^ (w - 1) ≤ v) && decide (v < (2 : Int) ^ (w - 1))

/-- Signed overflow of `a + b + cin` (R407). -/
def addOverflow {w : Nat} (a b : BitVec w) (cin : Bool) : Bool := !fitsSigned w (a.toInt + b.toInt + cin.toNat)

/-- Borrow of `b - a - cin`: `b < a + cin` unsigned (R409). -/
def subBorrow {w : Nat} (b a : BitVec w) (cin : Bool) : Bool := decide (b.toNat < a.toNat + cin.toNat)

/-- Signed overflow of `b - a - cin` (R409). -/
def subOverflow {w : Nat} (b a : BitVec w) (cin : Bool) : Bool := !fitsSigned w (b.toInt - a.toInt - cin.toNat)

/-- Set C and F, as the additions and subtractions do (R407, R409). -/
def State.setCarryOverflow (s : State) (c f : Bool) : State := (s.setFlag .c c).setFlag .f f

/-- Set Z, N and L from a comparison of operand 1 `a` with operand 2 `b` (R402). -/
def State.setCompare {w : Nat} (s : State) (a b : BitVec w) : State :=
  ((s.setFlag .z (a == b)).setFlag .n (b.slt a)).setFlag .l (b.ult a)

/-- Whether a condition holds (R416). -/
def condHolds (c : Cond) (s : State) : Bool :=
  match c with
  | .eq => s.flag .z
  | .ne => !s.flag .z
  | .cs => s.flag .c
  | .cc => !s.flag .c
  | .hi => s.flag .l
  | .ls => !s.flag .l
  | .gt => s.flag .n
  | .le => !s.flag .n
  | .fs => s.flag .f
  | .fc => !s.flag .f
  | .lo => !s.flag .l && !s.flag .z
  | .hs => s.flag .l || s.flag .z
  | .lt => !s.flag .n && !s.flag .z
  | .ge => s.flag .n || s.flag .z
  | .always => true
  | .never => false

end Sys2Proof.Machine
end

