-- ==== Sys2Proof/Machine/Ops.lean ====
section
/-! DEFINITION. The shared operations over registers, memory and the stack; entering a module; taking an exception
(R433) and returning from one (R434). -/

namespace Sys2Proof.Machine

/-- How a step can stop short of a next state. -/
inductive Stop where
  | fault (r : Fault)
  | refuse (r : Refusal)
deriving DecidableEq, Repr

/-- What an operation answers: a result or a stop. -/
abbrev Res := Except Stop

/-- The outcome of a step from the operation that makes its next state. -/
def finish (r : Res State) : Host.Outcome State Fault Refusal :=
  match r with
  | .ok s => .next s
  | .error (.fault f) => .fault f
  | .error (.refuse f) => .refused f

/-- Refuse for the named reason unless a condition holds. -/
def require (c : Bool) (r : Refusal) : Res Unit := if c then .ok () else .error (.refuse r)

/-! ### Registers -/

/-- Read a general register (R20). -/
def State.reg (s : State) (r : Reg) : Dword :=
  match r with
  | .r0 => s.regs.r0 | .r1 => s.regs.r1 | .r2 => s.regs.r2 | .r3 => s.regs.r3
  | .r4 => s.regs.r4 | .r5 => s.regs.r5 | .r6 => s.regs.r6 | .r7 => s.regs.r7

/-- Write a general register. -/
def State.setReg (s : State) (r : Reg) (v : Dword) : State :=
  match r with
  | .r0 => { s with regs := { s.regs with r0 := v } }
  | .r1 => { s with regs := { s.regs with r1 := v } }
  | .r2 => { s with regs := { s.regs with r2 := v } }
  | .r3 => { s with regs := { s.regs with r3 := v } }
  | .r4 => { s with regs := { s.regs with r4 := v } }
  | .r5 => { s with regs := { s.regs with r5 := v } }
  | .r6 => { s with regs := { s.regs with r6 := v } }
  | .r7 => { s with regs := { s.regs with r7 := v } }

/-- The current stack pointer: PSR.S selects SP0 or SP1 (R23). -/
def State.sp (s : State) : Dword := if s.flag .s then s.sp1 else s.sp0

/-- Write the current stack pointer. -/
def State.setSp (s : State) (v : Dword) : State := if s.flag .s then { s with sp1 := v } else { s with sp0 := v }

/-- Write the program counter. -/
def State.setPc (s : State) (v : Dword) : State := { s with pc := v }

/-- Move past an instruction (R401): its basic part and its extensions. -/
def State.advance (s : State) (i : Instr) : State := s.setPc (s.pc + BitVec.ofNat 32 i.size)

/-- The next open value, and the state that has drawn it. Log entry 17. -/
def State.drawFree (s : State) : Quad × State := (Config.freeValue s.freeIdx, { s with freeIdx := s.freeIdx + 1 })

/-- The queue-flushing instructions forget which bytes the instruction queue may hold in an old version (R66). -/
def State.flushQueue (s : State) : State := { s with unflushed := [] }

/-! ### Memory -/

/-- The byte at an address; an unlisted address reads as 0 (log entry 8). -/
def Memory.read : List Host.Cell → Nat → Byte
  | [], _ => 0#8
  | (k, b) :: m, a => if k = a then b else Memory.read m a

/-- Put a non-zero byte at its place. -/
def Memory.insert : List Host.Cell → Nat → Byte → List Host.Cell
  | [], a, b => [(a, b)]
  | (k, c) :: m, a, b =>
    if a < k then (a, b) :: (k, c) :: m
    else if a = k then (a, b) :: m
    else (k, c) :: Memory.insert m a b

/-- Write a byte; writing 0, what an unlisted address reads as, removes the entry. -/
def Memory.write (m : List Host.Cell) (a : Nat) (b : Byte) : List Host.Cell :=
  if b = 0#8 then m.filter (fun c => c.1 != a) else Memory.insert m a b

/-- The canonical form: addresses strictly rising and below 2^24, no entry 0. -/
def Memory.wf (m : List Host.Cell) : Bool :=
  decide (m.Pairwise (fun c d => c.1 < d.1)) && m.all (fun c => decide (c.1 < 2 ^ 24) && c.2 != 0#8)

/-- Add an address to a strictly rising list of addresses. -/
def insertAddress : List Nat → Nat → List Nat
  | [], a => [a]
  | k :: l, a => if a < k then a :: k :: l else if a = k then k :: l else k :: insertAddress l a

/-- The memory address that a 32-bit address names (R58, R59): at or above 2^24 the parameter ADDR_HIGH decides. -/
def physical (a : Dword) : Res Nat :=
  if a.toNat < 2 ^ 24 then .ok a.toNat
  else match Config.addrHigh with
    | .refuse => .error (.refuse (.addressHigh a))
    | .ignore => .ok (a.toNat % 2 ^ 24)

/-- Read one byte. -/
def State.loadByte (s : State) (a : Dword) : Res Byte := do
  let k ← physical a
  return Memory.read s.mem k

/-- Write one byte; the instruction queue may go on holding the old one (R66). -/
def State.storeByte (s : State) (a : Dword) (b : Byte) : Res State := do
  let k ← physical a
  return { s with mem := Memory.write s.mem k b, unflushed := insertAddress s.unflushed k }

/-- `MemRead(a, n)` (R11, R50): little-endian, in the low bytes of the answer. -/
def State.load (s : State) : Nat → Dword → Res Quad
  | 0, _ => .ok 0#64
  | n + 1, a => do
    let b ← s.loadByte a
    let rest ← s.load n (a + 1#32)
    return rest <<< 8 ||| b.setWidth 64

/-- `MemWrite(a, n, v)` (R11, R50): the low `n` bytes of `v`, the lowest at `a`. -/
def State.store (s : State) : Nat → Dword → Quad → Res State
  | 0, _, _ => .ok s
  | n + 1, a, v => do
    let s ← s.storeByte a (v.setWidth 8)
    s.store n (a + 1#32) (v >>> 8)

/-- Read a 16-bit word. -/
def State.load16 (s : State) (a : Dword) : Res Word16 := do
  let v ← s.load 2 a
  return v.setWidth 16

/-- Read a double-word. -/
def State.load32 (s : State) (a : Dword) : Res Dword := do
  let v ← s.load 4 a
  return v.setWidth 32

/-- Write a 16-bit word. -/
def State.store16 (s : State) (a : Dword) (v : Word16) : Res State := s.store 2 a (v.setWidth 64)

/-- Write a double-word. -/
def State.store32 (s : State) (a : Dword) (v : Dword) : Res State := s.store 4 a (v.setWidth 64)

/-! ### The stack and the modules -/

/-- Push a double-word on the current stack (R23). -/
def State.push32 (s : State) (v : Dword) : Res State :=
  (s.setSp (s.sp - 4#32)).store32 (s.sp - 4#32) v

/-- Pop a double-word from the current stack. -/
def State.pop32 (s : State) : Res (Dword × State) := do
  let v ← s.load32 s.sp
  return (v, s.setSp (s.sp + 4#32))

/-- Enter the procedure a module descriptor names (R433 step 4): MOD, SB and PC. -/
def State.enterModule (s : State) (descriptor : Dword) : Res State := do
  let m : Word16 := descriptor.setWidth 16
  let sb ← s.load32 (m.setWidth 32)
  let base ← s.load32 (m.setWidth 32 + 8#32)
  return { s with mod := m, sb := sb, pc := base + descriptor >>> 16 }

/-! ### Exceptions -/

/-- The traps and interrupts of the family (R431). -/
inductive Exception where
  | nvi | nmi | abt | slave | ill | svc | dvz | flg | bpt | trc | und
deriving DecidableEq, Repr

/-- The vector numbers (R431). -/
def Exception.vector : Exception → Dword
  | .nvi => 0#32 | .nmi => 1#32 | .abt => 2#32 | .slave => 3#32 | .ill => 4#32 | .svc => 5#32 | .dvz => 6#32
  | .flg => 7#32 | .bpt => 8#32 | .trc => 9#32 | .und => 10#32

/-- The exceptions that come from outside; they also clear PSR.I (R433). -/
def Exception.isInterrupt : Exception → Bool
  | .nvi | .nmi => true
  | .abt | .slave | .ill | .svc | .dvz | .flg | .bpt | .trc | .und => false

/-- PSR after entry (R433 step 1): S, U, T and P are 0, and I too for an interrupt. -/
def entryPsr (e : Exception) (psr : Word16) : Word16 :=
  let v := putFlag (putFlag (putFlag (putFlag psr .s false) .u false) .t false) .p false
  if e.isInterrupt then putFlag v .i false else v

/-- The double-word that entry pushes first (R433 step 2): PSR above MOD. P is pushed as 0, its value at the
instruction's start, before the step latched T into it (log entry 15). -/
def savedStatus (s : State) : Dword := putFlag s.psr .p false ++ s.mod

/-- Take an exception with return address `ret` (R433): the old PSR and MOD and the return address go on the interrupt
stack, and control goes to the procedure that the dispatch table names. -/
def takeException (e : Exception) (ret : Dword) (s : State) : Res State := do
  let saved := savedStatus s
  let s := s.setPsr (entryPsr e s.psr)
  let s ← s.push32 saved
  let s ← s.push32 ret
  let descriptor ← s.load32 (s.intbase + 4#32 * e.vector)
  s.enterModule descriptor

/-- Return from a trap (R434): PC, then PSR and MOD, from the current stack; SB from the module table; then `disp` is
added to the stack pointer that the restored PSR selects. -/
def returnFromTrap (disp : Dword) (s : State) : Res State := do
  let (pc, s) ← s.pop32
  let (saved, s) ← s.pop32
  let m : Word16 := saved.setWidth 16
  let sb ← s.load32 (m.setWidth 32)
  let s := { s.setPsr (saved.extractLsb' 16 16) with mod := m, sb := sb, pc := pc }
  return s.setSp (s.sp + disp)

/-- Do a privileged effect (R438): in user mode take the illegal operation trap, with nothing changed. -/
def privileged (s : State) (r : Res State) : Res State :=
  if s.flag .u then takeException .ill s.pc s else r

end Sys2Proof.Machine
end

