-- ==== Sys2Proof/Machine/Operands.lean ====
section
/-! DEFINITION. General operands (R95, R96, R384 to R392, R401): where an operand is, reading it, writing it, for
integer and for floating operands. -/

namespace Sys2Proof.Machine

/-- Width in bits of the integer types (R393). -/
def lenBits : IntLen → Nat
  | .b => 8
  | .w => 16
  | .d => 32

/-- An integer value of a length. -/
abbrev IntVal (len : IntLen) := BitVec (lenBits len)

/-- Where an operand is. -/
inductive Loc where
  | reg (r : Reg)
  | mem (a : Dword)
  | imm (v : Quad)
deriving DecidableEq, Repr

/-! ### Effective addresses (R96) -/

/-- The base register of Memory relative mode. -/
def State.relBase (s : State) : RelBase → Dword
  | .fp => s.fp
  | .sp => s.sp
  | .sb => s.sb

/-- The base register of Memory space mode; PC is the address of the instruction's first byte. -/
def State.spaceBase (s : State) : SpaceBase → Dword
  | .fp => s.fp
  | .sp => s.sp
  | .sb => s.sb
  | .pc => s.pc

/-- Where the operand of a base mode is, SP unchanged (R96). -/
def placeBase (m : BaseMode) (s : State) : Res Loc :=
  match m with
  | .reg r => .ok (.reg r)
  | .regRel r d => .ok (.mem (s.reg r + d.val))
  | .memRel b d1 d2 => do
    let p ← s.load32 (s.relBase b + d1.val)
    return .mem (p + d2.val)
  | .imm v => .ok (.imm v)
  | .absolute d => .ok (.mem d.val)
  | .external d1 d2 => do
    let table ← s.load32 (s.mod.setWidth 32 + 4#32)
    let p ← s.load32 (table + 4#32 * d1.val)
    return .mem (p + d2.val)
  | .tos => .ok (.mem s.sp)
  | .space b d => .ok (.mem (s.spaceBase b + d.val))

/-- The factor of a scaled index (R392). -/
def scaleFactor : Scale → Dword
  | .b => 1#32
  | .w => 2#32
  | .d => 4#32
  | .q => 8#32

/-- The address a scaled index starts from; over Register mode it is the register's contents (log entry 22). -/
def indexBase (l : Loc) (s : State) : Res Dword :=
  match l with
  | .reg r => .ok (s.reg r)
  | .mem a => .ok a
  | .imm _ => .error (.fault .notMemoryMode)

/-- Where a general operand is, for a use that leaves SP unchanged: read-modify-write or address (R96). -/
def place (g : Gen) (s : State) : Res Loc :=
  match g with
  | .plain m => placeBase m s
  | .scaled m x k => do
    let l ← placeBase m s
    let a ← indexBase l s
    return .mem (a + s.reg x * scaleFactor k)

/-- The effective address of an operand that must be in memory (R418). -/
def effAddr (g : Gen) (s : State) : Res Dword := do
  match ← place g s with
  | .mem a => .ok a
  | .reg _ => .error (.fault .notMemoryMode)
  | .imm _ => .error (.fault .notMemoryMode)

/-! ### Reading and writing (R401) -/

/-- The bits of a register that an operand of `n` bytes takes. -/
def lowMask (n : Nat) : Dword := BitVec.ofNat 32 (2 ^ (8 * n) - 1)

/-- A register with its low `n` bytes replaced (R96, R401). -/
def mergeLow (n : Nat) (old v : Dword) : Dword := old &&& ~~~lowMask n ||| v &&& lowMask n

/-- Read `n` bytes of an operand. -/
def Loc.read (l : Loc) (n : Nat) (s : State) : Res Quad :=
  match l with
  | .reg r => .ok ((s.reg r &&& lowMask n).setWidth 64)
  | .mem a => s.load n a
  | .imm v => .ok v

/-- Write `n` bytes of an operand; Immediate is no destination. -/
def Loc.write (l : Loc) (n : Nat) (v : Quad) (s : State) : Res State :=
  match l with
  | .reg r => .ok (s.setReg r (mergeLow n (s.reg r) (v.setWidth 32)))
  | .mem a => s.store n a v
  | .imm _ => .error (.fault .immediateDestination)

/-- Read an operand of an integer length. -/
def Loc.readInt (l : Loc) (len : IntLen) (s : State) : Res (IntVal len) := do
  let v ← l.read len.bytes s
  return v.setWidth (lenBits len)

/-- Write an operand of an integer length. -/
def Loc.writeInt (l : Loc) (len : IntLen) (v : IntVal len) (s : State) : Res State := l.write len.bytes (v.setWidth 64) s

/-- Read a general operand of `n` bytes: Top of stack pops (R96). -/
def readGen (g : Gen) (n : Nat) (s : State) : Res (Quad × State) :=
  match g with
  | .plain .tos => do
    let v ← s.load n s.sp
    return (v, s.setSp (s.sp + BitVec.ofNat 32 n))
  | g => do
    let l ← place g s
    let v ← l.read n s
    return (v, s)

/-- Write a general operand of `n` bytes: Top of stack pushes (R96). -/
def writeGen (g : Gen) (n : Nat) (v : Quad) (s : State) : Res State :=
  match g with
  | .plain .tos => (s.setSp (s.sp - BitVec.ofNat 32 n)).store n (s.sp - BitVec.ofNat 32 n) v
  | g => do
    let l ← place g s
    l.write n v s

/-- Read an integer operand. -/
def readInt (len : IntLen) (g : Gen) (s : State) : Res (IntVal len × State) := do
  let (v, s) ← readGen g len.bytes s
  return (v.setWidth (lenBits len), s)

/-- Write an integer operand. -/
def writeInt (len : IntLen) (g : Gen) (v : IntVal len) (s : State) : Res State := writeGen g len.bytes (v.setWidth 64) s

/-- A quick operand at a length: sign-extended (R95). -/
def quickVal (len : IntLen) (q : Quick) : IntVal len := q.signExtend (lenBits len)

/-! ### Floating operands (R34, R384): a register code names F or L -/

/-- Read a Long register. -/
def State.longReg (s : State) (r : Reg) : Quad :=
  match r with
  | .r0 => s.fregs.l0 | .r1 => s.fregs.l1 | .r2 => s.fregs.l2 | .r3 => s.fregs.l3
  | .r4 => s.fregs.l4 | .r5 => s.fregs.l5 | .r6 => s.fregs.l6 | .r7 => s.fregs.l7

/-- Write a Long register. -/
def State.setLongReg (s : State) (r : Reg) (v : Quad) : State :=
  match r with
  | .r0 => { s with fregs := { s.fregs with l0 := v } }
  | .r1 => { s with fregs := { s.fregs with l1 := v } }
  | .r2 => { s with fregs := { s.fregs with l2 := v } }
  | .r3 => { s with fregs := { s.fregs with l3 := v } }
  | .r4 => { s with fregs := { s.fregs with l4 := v } }
  | .r5 => { s with fregs := { s.fregs with l5 := v } }
  | .r6 => { s with fregs := { s.fregs with l6 := v } }
  | .r7 => { s with fregs := { s.fregs with l7 := v } }

/-- The Long register that holds a Float register, and whether it is its high half (log entry 19). -/
def floatHome : Reg → Reg × Bool
  | .r0 => (.r0, false) | .r1 => (.r0, true) | .r2 => (.r2, false) | .r3 => (.r2, true)
  | .r4 => (.r4, false) | .r5 => (.r4, true) | .r6 => (.r6, false) | .r7 => (.r6, true)

/-- Read a floating register. -/
def State.floatReg (s : State) (fl : FLen) (r : Reg) : Quad :=
  match fl with
  | .long => s.longReg r
  | .float =>
    let w := s.longReg (floatHome r).1
    if (floatHome r).2 then w >>> 32 else (w.setWidth 32).setWidth 64

/-- Write a floating register; the other half of the Long register is kept. -/
def State.setFloatReg (s : State) (fl : FLen) (r : Reg) (v : Quad) : State :=
  match fl with
  | .long => s.setLongReg r v
  | .float =>
    let w := s.longReg (floatHome r).1
    let lo : Dword := w.setWidth 32
    let hi : Dword := w.extractLsb' 32 32
    s.setLongReg (floatHome r).1 (if (floatHome r).2 then v.setWidth 32 ++ lo else hi ++ v.setWidth 32)

/-- Read a floating operand. -/
def Loc.readFloat (l : Loc) (fl : FLen) (s : State) : Res Quad :=
  match l with
  | .reg r => .ok (s.floatReg fl r)
  | .mem a => s.load fl.bytes a
  | .imm v => .ok v

/-- Write a floating operand. -/
def Loc.writeFloat (l : Loc) (fl : FLen) (v : Quad) (s : State) : Res State :=
  match l with
  | .reg r => .ok (s.setFloatReg fl r v)
  | .mem a => s.store fl.bytes a v
  | .imm _ => .error (.fault .immediateDestination)

/-- Read a general floating operand: Top of stack pops. -/
def readFloat (fl : FLen) (g : Gen) (s : State) : Res (Quad × State) :=
  match g with
  | .plain .tos => readGen g fl.bytes s
  | g => do
    let l ← place g s
    let v ← l.readFloat fl s
    return (v, s)

/-- Write a general floating operand: Top of stack pushes. -/
def writeFloat (fl : FLen) (g : Gen) (v : Quad) (s : State) : Res State :=
  match g with
  | .plain .tos => writeGen g fl.bytes v s
  | g => do
    let l ← place g s
    l.writeFloat fl v s

/-! ### Bits (R55, R422): base address or register, and a signed offset -/

/-- The byte that holds the addressed bit: Base + (Offset DIV 8), rounding down (R55, R12). -/
def bitByte (base off : Dword) : Dword := base + BitVec.ofInt 32 (off.toInt / 8)

/-- The bit's place in its byte: Offset MOD 8 (R55, R12). -/
def bitPos (off : Dword) : Nat := (off.toInt % 8).toNat

end Sys2Proof.Machine
end

