-- ==== Sys2Proof/Machine/Arith.lean ====
section
/-! DEFINITION. Integer addition, subtraction and comparison (R223, R294, R402, R403, R407 to R409), negation and absolute
value (R220, R275), and the packed-decimal instructions (R224, R295). -/

namespace Sys2Proof.Machine

/-- A two-operand instruction that reads `src`, reads and writes `dst`, and answers a result and the state with the
flags it sets (R401: operand 1 is evaluated before operand 2). -/
def binaryOp (i : Instr) (len : IntLen) (src dst : Gen) (s : State)
    (f : State → IntVal len → IntVal len → IntVal len × State) : Res State := do
  let (a, s) ← readInt len src s
  let l ← place dst s
  let b ← l.readInt len s
  let (r, s) := f s a b
  let s ← l.writeInt len r s
  return s.advance i

/-- A two-operand instruction that reads `src` and writes `dst`. -/
def unaryOp (i : Instr) (len : IntLen) (src dst : Gen) (s : State)
    (f : State → IntVal len → IntVal len × State) : Res State := do
  let (a, s) ← readInt len src s
  let (r, s) := f s a
  let s ← writeInt len dst r s
  return s.advance i

/-! ### Addition and subtraction -/

/-- The sum with a carry in, and C and F (R407). -/
def addResult {w : Nat} (cin : Bool) (s : State) (a b : BitVec w) : BitVec w × State :=
  (a + b + BitVec.ofNat w cin.toNat, s.setCarryOverflow (addCarry a b cin) (addOverflow a b cin))

/-- The difference `b - a` with a borrow in, and C and F (R409). -/
def subResult {w : Nat} (cin : Bool) (s : State) (a b : BitVec w) : BitVec w × State :=
  (b - a - BitVec.ofNat w cin.toNat, s.setCarryOverflow (subBorrow b a cin) (subOverflow b a cin))

/-- ADDi (R407). -/
def addOp (i : Instr) (len : IntLen) (src dst : Gen) (s : State) : Host.Outcome State Fault Refusal :=
  finish (binaryOp i len src dst s (addResult false))

/-- ADDCi: the carry is added too (R223, log entry 1). -/
def addCarryOp (i : Instr) (len : IntLen) (src dst : Gen) (s : State) : Host.Outcome State Fault Refusal :=
  finish (binaryOp i len src dst s (fun t a b => addResult (t.flag .c) t a b))

/-- SUBi (R409). -/
def subOp (i : Instr) (len : IntLen) (src dst : Gen) (s : State) : Host.Outcome State Fault Refusal :=
  finish (binaryOp i len src dst s (subResult false))

/-- SUBCi: the borrow is subtracted too (R294, log entry 1). -/
def subCarryOp (i : Instr) (len : IntLen) (src dst : Gen) (s : State) : Host.Outcome State Fault Refusal :=
  finish (binaryOp i len src dst s (fun t a b => subResult (t.flag .c) t a b))

/-- Add a value to an operand in place. -/
def addTo (i : Instr) (len : IntLen) (a : IntVal len) (dst : Gen) (s : State) : Res State := do
  let l ← place dst s
  let b ← l.readInt len s
  let (r, s) := addResult false s a b
  let s ← l.writeInt len r s
  return s.advance i

/-- ADDQi (R408). -/
def addQuickOp (i : Instr) (len : IntLen) (q : Quick) (dst : Gen) (s : State) : Host.Outcome State Fault Refusal :=
  finish (addTo i len (quickVal len q) dst s)

/-- ADDB (R407). -/
def execAddb (src dst : Gen) (s : State) : Host.Outcome State Fault Refusal := addOp (.addb src dst) .b src dst s

/-- ADDW (R407). -/
def execAddw (src dst : Gen) (s : State) : Host.Outcome State Fault Refusal := addOp (.addw src dst) .w src dst s

/-- ADDD (R407). -/
def execAddd (src dst : Gen) (s : State) : Host.Outcome State Fault Refusal := addOp (.addd src dst) .d src dst s

/-- ADDCB (R223, log entry 1). -/
def execAddcb (src dst : Gen) (s : State) : Host.Outcome State Fault Refusal :=
  addCarryOp (.addcb src dst) .b src dst s

/-- ADDCW (R223, log entry 1). -/
def execAddcw (src dst : Gen) (s : State) : Host.Outcome State Fault Refusal :=
  addCarryOp (.addcw src dst) .w src dst s

/-- ADDCD (R223, log entry 1). -/
def execAddcd (src dst : Gen) (s : State) : Host.Outcome State Fault Refusal :=
  addCarryOp (.addcd src dst) .d src dst s

/-- SUBB (R409). -/
def execSubb (src dst : Gen) (s : State) : Host.Outcome State Fault Refusal := subOp (.subb src dst) .b src dst s

/-- SUBW (R409). -/
def execSubw (src dst : Gen) (s : State) : Host.Outcome State Fault Refusal := subOp (.subw src dst) .w src dst s

/-- SUBD (R409). -/
def execSubd (src dst : Gen) (s : State) : Host.Outcome State Fault Refusal := subOp (.subd src dst) .d src dst s

/-- SUBCB (R294, log entry 1). -/
def execSubcb (src dst : Gen) (s : State) : Host.Outcome State Fault Refusal :=
  subCarryOp (.subcb src dst) .b src dst s

/-- SUBCW (R294, log entry 1). -/
def execSubcw (src dst : Gen) (s : State) : Host.Outcome State Fault Refusal :=
  subCarryOp (.subcw src dst) .w src dst s

/-- SUBCD (R294, log entry 1). -/
def execSubcd (src dst : Gen) (s : State) : Host.Outcome State Fault Refusal :=
  subCarryOp (.subcd src dst) .d src dst s

/-- ADDQB (R408). -/
def execAddqb (q : Quick) (dst : Gen) (s : State) : Host.Outcome State Fault Refusal :=
  addQuickOp (.addqb q dst) .b q dst s

/-- ADDQW (R408). -/
def execAddqw (q : Quick) (dst : Gen) (s : State) : Host.Outcome State Fault Refusal :=
  addQuickOp (.addqw q dst) .w q dst s

/-- ADDQD (R408). -/
def execAddqd (q : Quick) (dst : Gen) (s : State) : Host.Outcome State Fault Refusal :=
  addQuickOp (.addqd q dst) .d q dst s

/-! ### Comparison -/

/-- CMPi (R402). -/
def cmpOp (i : Instr) (len : IntLen) (src1 src2 : Gen) (s : State) : Host.Outcome State Fault Refusal :=
  finish do
    let (a, s) ← readInt len src1 s
    let (b, s) ← readInt len src2 s
    return (s.setCompare a b).advance i

/-- CMPQi (R403). -/
def cmpQuickOp (i : Instr) (len : IntLen) (q : Quick) (src : Gen) (s : State) : Host.Outcome State Fault Refusal :=
  finish do
    let (b, s) ← readInt len src s
    return (s.setCompare (quickVal len q) b).advance i

/-- CMPB (R402). -/
def execCmpb (src1 src2 : Gen) (s : State) : Host.Outcome State Fault Refusal :=
  cmpOp (.cmpb src1 src2) .b src1 src2 s

/-- CMPW (R402). -/
def execCmpw (src1 src2 : Gen) (s : State) : Host.Outcome State Fault Refusal :=
  cmpOp (.cmpw src1 src2) .w src1 src2 s

/-- CMPD (R402). -/
def execCmpd (src1 src2 : Gen) (s : State) : Host.Outcome State Fault Refusal :=
  cmpOp (.cmpd src1 src2) .d src1 src2 s

/-- CMPQB (R403). -/
def execCmpqb (q : Quick) (src : Gen) (s : State) : Host.Outcome State Fault Refusal :=
  cmpQuickOp (.cmpqb q src) .b q src s

/-- CMPQW (R403). -/
def execCmpqw (q : Quick) (src : Gen) (s : State) : Host.Outcome State Fault Refusal :=
  cmpQuickOp (.cmpqw q src) .w q src s

/-- CMPQD (R403). -/
def execCmpqd (q : Quick) (src : Gen) (s : State) : Host.Outcome State Fault Refusal :=
  cmpQuickOp (.cmpqd q src) .d q src s

/-! ### Negation and absolute value -/

/-- The negation, C (borrow) and F (overflow): 0 less the source (R275, log entry 1). -/
def negResult {w : Nat} (s : State) (a : BitVec w) : BitVec w × State := subResult false s a 0#w

/-- NEGi (R275, log entry 1). -/
def execNegi (len : IntLen) (src dst : Gen) (s : State) : Host.Outcome State Fault Refusal :=
  finish (unaryOp (.negi len src dst) len src dst s negResult)

/-- The absolute value and F; of the most negative number it is an open value (R220, log entry 24). -/
def absResult {w : Nat} (s : State) (a : BitVec w) : BitVec w × State :=
  if a = BitVec.intMin w then
    let (x, s) := s.drawFree
    (x.setWidth w, s.setFlag .f true)
  else (if a.msb then -a else a, s.setFlag .f false)

/-- ABSi (R220, log entry 24). -/
def execAbsi (len : IntLen) (src dst : Gen) (s : State) : Host.Outcome State Fault Refusal :=
  finish (unaryOp (.absi len src dst) len src dst s absResult)

/-! ### Packed decimal (log entry 26) -/

/-- The number that `n` packed decimal digits stand for; none where a digit is above 9. -/
def bcdValue : Nat → Nat → Option Nat
  | 0, _ => some 0
  | n + 1, v =>
    if v % 16 ≤ 9 then (bcdValue n (v / 16)).map (fun hi => v % 16 + 10 * hi) else none

/-- The low `n` decimal digits of a number, packed. -/
def bcdDigits : Nat → Nat → Nat
  | 0, _ => 0
  | n + 1, v => v % 10 + 16 * bcdDigits n (v / 10)

/-- A packed-decimal result and its carry. With a digit above 9 both are open; F is open always. -/
def decimalResult (w : Nat) (s : State) (r : Option (Nat × Bool)) : BitVec w × State :=
  let (x, s) := s.drawFree
  match r with
  | some (v, c) => (BitVec.ofNat w v, s.setCarryOverflow c (x.getLsbD 0))
  | none =>
    let (y, s) := s.drawFree
    (y.setWidth w, s.setCarryOverflow (x.getLsbD 1) (x.getLsbD 0))

/-- Packed-decimal sum of `w / 4` digits with a carry in. -/
def decimalSum (w a b : Nat) (cin : Bool) : Option (Nat × Bool) := do
  let x ← bcdValue (w / 4) a
  let y ← bcdValue (w / 4) b
  return (bcdDigits (w / 4) (x + y + cin.toNat), decide (10 ^ (w / 4) ≤ x + y + cin.toNat))

/-- Packed-decimal difference `b - a` with a borrow in. -/
def decimalDifference (w a b : Nat) (cin : Bool) : Option (Nat × Bool) := do
  let x ← bcdValue (w / 4) a
  let y ← bcdValue (w / 4) b
  return (bcdDigits (w / 4) (10 ^ (w / 4) + y - (x + cin.toNat)), decide (y < x + cin.toNat))

/-- ADDPi (R224, log entry 26). -/
def execAddpi (len : IntLen) (src dst : Gen) (s : State) : Host.Outcome State Fault Refusal :=
  finish (binaryOp (.addpi len src dst) len src dst s (fun t a b =>
    decimalResult (lenBits len) t (decimalSum (lenBits len) a.toNat b.toNat (t.flag .c))))

/-- SUBPi (R295, log entry 26). -/
def execSubpi (len : IntLen) (src dst : Gen) (s : State) : Host.Outcome State Fault Refusal :=
  finish (binaryOp (.subpi len src dst) len src dst s (fun t a b =>
    decimalResult (lenBits len) t (decimalDifference (lenBits len) a.toNat b.toNat (t.flag .c))))

end Sys2Proof.Machine
end

