-- ==== Sys2Proof/Machine/BitStrings.lean ====
section
/-! DEFINITION. MOVMPB, MOVMPW, MOVMPD (42_movmp.md), SBITS, SBITPS and TBITS (43_bit_strings.md). -/

namespace Sys2Proof.Machine

/-! ### MOVMPi (R162 to R165) -/

/-- Write the pattern in R3 until the count in R2 is zero. -/
def patternLoop (bytes : Nat) : Nat → State → Res State
  | 0, s => .ok s
  | n + 1, s => do
    let s ← s.store bytes (s.reg .r0) ((s.reg .r3).setWidth 64)
    let s := s.setReg .r0 (s.reg .r0 + s.reg .r1)
    patternLoop bytes n (s.setReg .r2 (s.reg .r2 - 1#32))

/-- MOVMPi for `bytes` = 1, 2, 4 (R162). -/
def movmpOp (i : Instr) (bytes : Nat) (s : State) : Host.Outcome State Fault Refusal :=
  finish do
    let s ← patternLoop bytes (s.reg .r2).toNat s
    return s.advance i

/-- MOVMPB (R163). -/
def execMovmpb (s : State) : Host.Outcome State Fault Refusal := movmpOp .movmpb 1 s

/-- MOVMPW (R164). -/
def execMovmpw (s : State) : Host.Outcome State Fault Refusal := movmpOp .movmpw 2 s

/-- MOVMPD (R165). -/
def execMovmpd (s : State) : Host.Outcome State Fault Refusal := movmpOp .movmpd 4 s

/-! ### SBITS (R170 to R174) -/

/-- The address of the entry of the string look-up table for run length R2 and bit R1 MOD 8 (R171). -/
def sbitsEntry (s : State) : Dword :=
  s.reg .r3 + 4#32 * (s.reg .r2 + 32#32 * BitVec.ofNat 32 (bitPos (s.reg .r1)))

/-- SBITS (R171). -/
def execSbits (s : State) : Host.Outcome State Fault Refusal :=
  finish do
    let a := bitByte (s.reg .r0) (s.reg .r1)
    if 25#32 < s.reg .r2 then
      let _ ← s.load32 a
      return (s.setFlag .f true).advance .sbits
    else
      let t ← s.load32 (sbitsEntry s)
      let d ← s.load32 a
      let s ← s.store32 a (d ||| t)
      return (s.setFlag .f false).advance .sbits

/-! ### SBITPS (R177 to R179) -/

/-- Set a bit and move by the warp in R3 until the run length in R2 is zero (R178). -/
def perpendicularLoop : Nat → State → Res State
  | 0, s => .ok s
  | n + 1, s => do
    let a := bitByte (s.reg .r0) (s.reg .r1)
    let v ← s.loadByte a
    let s ← s.storeByte a (v ||| 1#8 <<< bitPos (s.reg .r1))
    let s := s.setReg .r1 (s.reg .r1 + s.reg .r3)
    perpendicularLoop n (s.setReg .r2 (s.reg .r2 - 1#32))

/-- SBITPS (R178). -/
def execSbitps (s : State) : Host.Outcome State Fault Refusal :=
  finish do
    let s ← perpendicularLoop (s.reg .r2).toNat s
    return s.advance .sbitps

/-! ### TBITS (R182 to R186) -/

/-- Test bits from the offset in R1 on (R183): `ones` is option S. The loop ends at the latest when R1 reaches R4. -/
def testLoop (ones : Bool) : Nat → State → Res State
  | 0, s => .ok s
  | n + 1, s => do
    let v ← s.loadByte (bitByte (s.reg .r0) (s.reg .r1))
    let bit := v.getLsbD (bitPos (s.reg .r1))
    let s := s.setFlag .f bit
    if bit ≠ ones then .ok (s.setFlag .l true)
    else
      let s := s.setReg .r1 (s.reg .r1 + 1#32)
      let s := s.setReg .r2 (s.reg .r2 + 1#32)
      if s.reg .r3 ≤ s.reg .r2 then .ok (s.setFlag .l true)
      else if (s.reg .r4).sle (s.reg .r1) then .ok (s.setFlag .l false)
      else testLoop ones n s

/-- TBITS (R183). -/
def execTbits (ones : Bool) (s : State) : Host.Outcome State Fault Refusal :=
  finish do
    let s ←
      if (s.reg .r4).sle (s.reg .r1) then .ok ((s.setFlag .l false).setFlag .f ones)
      else testLoop ones (s.reg .r4 - s.reg .r1).toNat s
    return s.advance (.tbits ones)

end Sys2Proof.Machine
end

