-- ==== Sys2Proof/Machine/Bitblt.lean ====
section
/-! DEFINITION. The BITBLT series BBOR, BBFOR, BBXOR, BBAND, BBSTOD (40_bitblt_bb.md), BITWT and EXTBLT
(41_bitwt_extblt.md): the pseudocode of R114, R115, R141 and R148, statement by statement. -/

namespace Sys2Proof.Machine

/-- The five functions of the series. -/
inductive BbFn where
  | or | fastOr | xor | and | stod
deriving DecidableEq, Repr

/-- Which mask the word of a line meets (R115). -/
inductive WordPos where
  | first | inner | last
deriving DecidableEq, Repr

/-- The shift value: the low 8 bits of R2 (R110, R140). -/
def State.shiftValue (s : State) : Nat := ((s.reg .r2).setWidth 8).toNat

/-- The preconditions that the series shares with BITWT: a shift of 0 to 15, and L as CMPB R2,0 leaves it (R112 items 1
and 2, R142). -/
def shiftReady (s : State) : Res Unit := do
  require (decide (s.shiftValue ≤ 15)) .shiftOutOfRange
  require (s.flag .l == decide (s.shiftValue ≠ 0)) .lFlagMismatch

/-- The preconditions of the BB series (R112, R116, R128). -/
def bbReady (s : State) : Res Unit := do
  shiftReady s
  require ((s.reg .r4).extractLsb' 16 16 == 0#16 && (s.reg .r5).extractLsb' 16 16 == 0#16) .maskHighBits
  require (!s.flag .j && !s.flag .k) .jkSet
  require (s.reg .r3 != 0#32) .heightZero
  let width ← s.load16 s.sp
  require (width != 0#16) .widthZero

/-- The mask register that a word of the line meets, zero-extended; the inner words meet none. -/
def lineMask (pos : WordPos) (s : State) : Option Dword :=
  match pos with
  | .first => some (((s.reg .r4).setWidth 16).setWidth 32)
  | .inner => none
  | .last => some (((s.reg .r5).setWidth 16).setWidth 32)

/-- The source word prepared for OR, FOR, XOR and STOD: zero-extended, masked, shifted (R115). -/
def shiftedSource (pos : WordPos) (w : Word16) (s : State) : Dword :=
  match lineMask pos s with
  | some m => (w.setWidth 32 &&& m) <<< s.shiftValue
  | none => w.setWidth 32 <<< s.shiftValue

/-- The source word prepared for AND: ones above it, the mask ORed in, rotated (R115). -/
def rotatedSource (pos : WordPos) (w : Word16) (s : State) : Dword :=
  match lineMask pos s with
  | some m => (0xFFFF0000#32 ||| w.setWidth 32 ||| m).rotateLeft s.shiftValue
  | none => (0xFFFF0000#32 ||| w.setWidth 32).rotateLeft s.shiftValue

/-- The internal mask of BBSTOD: which destination bits stay (R115). -/
def internalMask (pos : WordPos) (s : State) : Dword :=
  match lineMask pos s with
  | some m => ~~~m.rotateLeft s.shiftValue
  | none => (0xFFFF0000#32).rotateLeft s.shiftValue

/-- What a destination double-word becomes (R115). -/
def bbCombine (fn : BbFn) (pos : WordPos) (w : Word16) (d : Dword) (s : State) : Dword :=
  match fn with
  | .or | .fastOr => d ||| shiftedSource pos w s
  | .xor => d ^^^ shiftedSource pos w s
  | .and => d &&& rotatedSource pos w s
  | .stod => d &&& internalMask pos s ||| shiftedSource pos w s

/-- The source word: inverted with option -S (R115). -/
def bbSource (inv : Bool) (s : State) : Res Word16 := do
  let w ← s.load16 (s.reg .r0)
  return if inv then ~~~w else w

/-- BBSTOD makes its second internal mask at an inner word and keeps it inside the CPU (R36, log entry 47). -/
def keepMask (fn : BbFn) (pos : WordPos) (s : State) : State :=
  match fn, pos with
  | .stod, .inner => { s with bbMask := internalMask .inner s }
  | .stod, .first | .stod, .last | .or, _ | .fastOr, _ | .xor, _ | .and, _ => s

/-- One word (R115). BBFOR with L = 0 reads and writes only a word of the destination (R121). -/
def bbWord (fn : BbFn) (inv : Bool) (pos : WordPos) (s : State) : Res State := do
  let w ← bbSource inv s
  if fn = .fastOr ∧ s.flag .l = false then
    let d ← s.load16 (s.reg .r1)
    s.store16 (s.reg .r1) ((bbCombine fn pos w (d.setWidth 32) s).setWidth 16)
  else
    let d ← s.load32 (s.reg .r1)
    (keepMask fn pos s).store32 (s.reg .r1) (bbCombine fn pos w d s)

/-- The step of the pointers: +2, or -2 with option DA (R114). -/
def bbStep (da : Bool) : Dword := if da then 0xFFFFFFFE#32 else 2#32

/-- Move both pointers by a step. -/
def movePointers (step : Dword) (s : State) : State :=
  let s := s.setReg .r0 (s.reg .r0 + step)
  s.setReg .r1 (s.reg .r1 + step)

/-- Count a word off the current width in FP. -/
def State.countWord (s : State) : State := { s with fp := s.fp - 1#32 }

/-- The inner loop: words without masks until the width is one (R114). -/
def bbInner (fn : BbFn) (da inv : Bool) : Nat → State → Res State
  | 0, s => .ok s
  | n + 1, s =>
    if s.fp = 1#32 then .ok s
    else do
      let s ← bbWord fn inv .inner s
      bbInner fn da inv n (movePointers (bbStep da) s).countWord

/-- The end of a line: the warps are added and the height counts down (R114, R148). -/
def endLine (s : State) : State :=
  let s := s.setReg .r0 (s.reg .r0 + s.reg .r6)
  let s := s.setReg .r1 (s.reg .r1 + s.reg .r7)
  s.setReg .r3 (s.reg .r3 - 1#32)

/-- One line (R114, R117). -/
def bbLine (fn : BbFn) (da inv : Bool) (s : State) : Res State := do
  let width ← s.load16 (s.sp + 4#32)
  let s ← bbWord fn inv .first { s with fp := width.setWidth 32 }
  let moved := (movePointers (bbStep da) s).countWord
  if moved.fp = 0#32 then
    return endLine (if Config.bbW1Advance then moved else s.countWord)
  else
    let s ← bbInner fn da inv moved.fp.toNat moved
    let s ← bbWord fn inv .last s
    return endLine s

/-- The lines until the height is zero (R114). -/
def bbLines (fn : BbFn) (da inv : Bool) : Nat → State → Res State
  | 0, s => .ok s
  | n + 1, s => do
    let s ← bbLine fn da inv s
    if s.reg .r3 = 0#32 then .ok s else bbLines fn da inv n s

/-- Save FP on the stack, do the lines, restore FP from the stack (R114). -/
def bbRun (fn : BbFn) (da inv : Bool) (s : State) : Res State := do
  let s ← s.push32 s.fp
  let s ← bbLines fn da inv (s.reg .r3).toNat s
  let (v, s) ← s.pop32
  return { s with fp := v }

/-- An instruction of the series (R114). -/
def bbOp (i : Instr) (fn : BbFn) (da inv : Bool) (s : State) : Host.Outcome State Fault Refusal :=
  finish do
    bbReady s
    let s ← bbRun fn da inv s
    return s.advance i

/-- BBOR (R120). -/
def execBbor (da inv : Bool) (s : State) : Host.Outcome State Fault Refusal := bbOp (.bbor da inv) .or da inv s

/-- BBFOR (R121). -/
def execBbfor (s : State) : Host.Outcome State Fault Refusal := bbOp .bbfor .fastOr false false s

/-- BBXOR (R122). -/
def execBbxor (da inv : Bool) (s : State) : Host.Outcome State Fault Refusal := bbOp (.bbxor da inv) .xor da inv s

/-- BBAND (R123). -/
def execBband (da inv : Bool) (s : State) : Host.Outcome State Fault Refusal := bbOp (.bband da inv) .and da inv s

/-- BBSTOD (R124). -/
def execBbstod (da inv : Bool) (s : State) : Host.Outcome State Fault Refusal := bbOp (.bbstod da inv) .stod da inv s

/-! ### BITWT (R140 to R143) -/

/-- The word transfer of R141: L selects the word-sized destination. -/
def bitwtWord (s : State) : Res State := do
  let w ← s.load16 (s.reg .r0)
  let t : Dword := w.setWidth 32 <<< s.shiftValue
  if s.flag .l then
    let d ← s.load32 (s.reg .r1)
    s.store32 (s.reg .r1) (d ||| t)
  else
    let d ← s.load16 (s.reg .r1)
    s.store16 (s.reg .r1) (d ||| t.setWidth 16)

/-- BITWT (R141). -/
def execBitwt (s : State) : Host.Outcome State Fault Refusal :=
  finish do
    shiftReady s
    let s ← bitwtWord s
    return (movePointers 2#32 s).advance .bitwt

/-! ### EXTBLT (R145 to R154) -/

/-- The preconditions of EXTBLT (R147); both values of L are legal. -/
def extbltReady (s : State) : Res Unit := do
  require Config.bpuPresent .bpuAbsent
  require (s.reg .r4 == 2#32 || s.reg .r4 == 0xFFFFFFFE#32) .horizontalIncrement
  require (s.reg .r2 != 0#32 && (s.reg .r2).msb == (s.reg .r4).msb && !(s.reg .r2).getLsbD 0) .extbltWidth
  require (s.reg .r3 != 0#32) .heightZero
  require (!(s.reg .r0).getLsbD 0 && !(s.reg .r1).getLsbD 0 && !(s.reg .r6).getLsbD 0 && !(s.reg .r7).getLsbD 0) .oddAddress

/-- The source words of one inner iteration: a second one at the start of a line when L is 0 (R149). -/
def extbltSource (first : Bool) (s : State) : Res (List Word16) := do
  let w ← s.load16 (s.reg .r0)
  if s.flag .l = false ∧ first then
    let p ← s.load16 (s.reg .r0)
    return [w, p]
  else return [w]

/-- One inner iteration up to the write: the BPU presents the word to be written (R148, R150). -/
def extbltWord (first : Bool) (s : State) : Res State := do
  let ws ← extbltSource first s
  let d ← s.load16 (s.reg .r1)
  let (w, b) := Config.bpuResult s.bpu ws d
  { s with bpu := b }.store16 (s.reg .r1) w

/-- The words of a line until the current width in R5 is zero (R148). -/
def extbltWords : Nat → Bool → State → Res State
  | 0, _, s => .ok s
  | n + 1, first, s => do
    let s ← extbltWord first s
    let s := s.setReg .r5 (s.reg .r5 - s.reg .r4)
    if s.reg .r5 = 0#32 then
      .ok (if Config.extbltAdvanceLast then movePointers (s.reg .r4) s else s)
    else extbltWords n false (movePointers (s.reg .r4) s)

/-- The lines of EXTBLT until the height is zero (R148). -/
def extbltLines : Nat → State → Res State
  | 0, s => .ok s
  | n + 1, s => do
    let s := s.setReg .r5 (s.reg .r2)
    let s ← extbltWords (s.reg .r2).toInt.natAbs true s
    let s := endLine s
    if s.reg .r3 = 0#32 then .ok s else extbltLines n s

/-- EXTBLT (R148): NBPU is asserted while the lines are done (R152). -/
def execExtblt (s : State) : Host.Outcome State Fault Refusal :=
  finish do
    extbltReady s
    let s ← s.push32 s.fp
    let s ← extbltLines (s.reg .r3).toNat { s with nbpu := true }
    let (v, s) ← { s with nbpu := false }.pop32
    return { s with fp := v }.advance .extblt

end Sys2Proof.Machine
end

