-- ==== Sys2Proof/Machine/Bits.lean ====
section
/-! DEFINITION. Single bits (R55, R68, R320, R321, R422 to R425), FFSi (R210), CVTP (R208) and bit fields (R252, R253, R255, R256). -/

namespace Sys2Proof.Machine

/-- A bit in a register or in a byte of memory. -/
inductive BitLoc where
  | reg (r : Reg) (k : Nat)
  | mem (a : Dword) (k : Nat)
deriving DecidableEq, Repr

/-- The bit that a base operand and a signed offset name (R422). -/
def placeBit (base : Gen) (off : Dword) (s : State) : Res BitLoc := do
  match ← place base s with
  | .reg r => .ok (.reg r (off.toInt % 32).toNat)
  | .mem a => .ok (.mem (bitByte a off) (bitPos off))
  | .imm _ => .error (.fault .notMemoryMode)

/-- Read a bit. -/
def BitLoc.read (l : BitLoc) (s : State) : Res Bool :=
  match l with
  | .reg r k => .ok ((s.reg r).getLsbD k)
  | .mem a k => do
    let v ← s.loadByte a
    return v.getLsbD k

/-- A value with one bit replaced. -/
def putBit {w : Nat} (v : BitVec w) (k : Nat) (b : Bool) : BitVec w :=
  if b then v ||| 1#w <<< k else v &&& ~~~(1#w <<< k)

/-- Write a bit; in memory its whole byte is written. -/
def BitLoc.write (l : BitLoc) (b : Bool) (s : State) : Res State :=
  match l with
  | .reg r k => .ok (s.setReg r (putBit (s.reg r) k b))
  | .mem a k => do
    let v ← s.loadByte a
    s.storeByte a (putBit v k b)

/-- TBITi: F receives the bit (R425). -/
def testBitOp (i : Instr) (len : IntLen) (off base : Gen) (s : State) : Host.Outcome State Fault Refusal :=
  finish do
    let (o, s) ← readInt len off s
    let l ← placeBit base (o.signExtend 32) s
    let b ← l.read s
    return (s.setFlag .f b).advance i

/-- SBITi, CBITi, IBITi: F receives the old value of the bit, and the bit the new one (R422 to R424). -/
def changeBitOp (i : Instr) (len : IntLen) (off base : Gen) (s : State) (f : Bool → Bool) : Host.Outcome State Fault Refusal :=
  finish do
    let (o, s) ← readInt len off s
    let l ← placeBit base (o.signExtend 32) s
    let b ← l.read s
    let s ← l.write (f b) (s.setFlag .f b)
    return s.advance i

/-- TBITB (R425). -/
def execTbitb (off base : Gen) (s : State) : Host.Outcome State Fault Refusal :=
  testBitOp (.tbitb off base) .b off base s

/-- TBITW (R425). -/
def execTbitw (off base : Gen) (s : State) : Host.Outcome State Fault Refusal :=
  testBitOp (.tbitw off base) .w off base s

/-- TBITD (R425). -/
def execTbitd (off base : Gen) (s : State) : Host.Outcome State Fault Refusal :=
  testBitOp (.tbitd off base) .d off base s

/-- SBITi (R422). -/
def execSbiti (len : IntLen) (off base : Gen) (s : State) : Host.Outcome State Fault Refusal :=
  changeBitOp (.sbiti len off base) len off base s (fun _ => true)

/-- CBITi (R423). -/
def execCbiti (len : IntLen) (off base : Gen) (s : State) : Host.Outcome State Fault Refusal :=
  changeBitOp (.cbiti len off base) len off base s (fun _ => false)

/-- IBITi (R424). -/
def execIbiti (len : IntLen) (off base : Gen) (s : State) : Host.Outcome State Fault Refusal :=
  changeBitOp (.ibiti len off base) len off base s not

/-- SBITIi: SBITi with the bus interlocked (R68, R321, log entry 46). -/
def execSbitii (len : IntLen) (off base : Gen) (s : State) : Host.Outcome State Fault Refusal :=
  changeBitOp (.sbitii len off base) len off base s (fun _ => true)

/-- CBITIi: CBITi with the bus interlocked (R68, R320, log entry 46). -/
def execCbitii (len : IntLen) (off base : Gen) (s : State) : Host.Outcome State Fault Refusal :=
  changeBitOp (.cbitii len off base) len off base s (fun _ => false)

/-- The first set bit of `v` at or above bit `k`, among `n` bits. -/
def firstSet {w : Nat} (v : BitVec w) : Nat → Nat → Option Nat
  | 0, _ => none
  | n + 1, k => if v.getLsbD k then some k else firstSet v n (k + 1)

/-- FFSi: the first set bit of `base` from the bit number in `off` upward: found, F is 0 and `off` takes its number; not
found, F is 1 and `off` takes 0; a start beyond the operand leaves both open (R210, log entry 28). Its `reg` field is not used (log entry 49). -/
def execFfsi (field : RegLen) (base off : Gen) (s : State) : Host.Outcome State Fault Refusal :=
  finish do
    let len := field.len
    let (v, s) ← readInt len base s
    let l ← place off s
    let k ← l.readInt .b s
    let (r, s) :=
      if k.toNat < lenBits len then
        match firstSet v (lenBits len - k.toNat) k.toNat with
        | some n => (BitVec.ofNat 8 n, s.setFlag .f false)
        | none => (0#8, s.setFlag .f true)
      else
        let (x, s) := s.drawFree
        (x.setWidth 8, s.setFlag .f (x.getLsbD 8))
    let s ← l.writeInt .b r s
    return s.advance (.ffsi field base off)

/-- CVTP: the bit pointer, eight times the address plus the offset register (R208, log entry 50). Its `i`
field is not used (log entry 49). -/
def execCvtp (field : RegLen) (base dst : Gen) (s : State) : Host.Outcome State Fault Refusal :=
  finish do
    let a ← effAddr base s
    let s ← writeInt .d dst (8#32 * a + s.reg field.reg) s
    return s.advance (.cvtp field base dst)

/-! ### Bit fields (log entry 29) -/

/-- Where a field's double-word is, and the field's first bit in it. -/
def placeField (base : Gen) (off : Dword) (s : State) : Res (Loc × Nat) := do
  match ← place base s with
  | .reg r => .ok (.reg r, (off.toInt % 32).toNat)
  | .mem a => .ok (.mem (bitByte a off), bitPos off)
  | .imm _ => .error (.fault .notMemoryMode)

/-- A field of `size` bits from bit `k` lies in one double-word. -/
def fieldFits (k size : Nat) : Bool := decide (1 ≤ size) && decide (k + size ≤ 32)

/-- Read the field of `size` bits at `off`, zero-extended, into `dst`; a field that does not lie in one double-word is
open. -/
def extractField (i : Instr) (len : IntLen) (base dst : Gen) (off : Dword) (size : Nat) (s : State) : Res State := do
  let (l, k) ← placeField base off s
  let d : Dword ← l.readInt .d s
  let (v, s) :=
    if fieldFits k size then (d >>> k &&& BitVec.ofNat 32 (2 ^ size - 1), s)
    else
      let (x, s) := s.drawFree
      (x.setWidth 32, s)
  let s ← writeInt len dst (v.setWidth (lenBits len)) s
  return s.advance i

/-- Write the low `size` bits of `src` into the field at `off`; where the field does not lie in one double-word, the
double-word is open. -/
def insertField (i : Instr) (len : IntLen) (src base : Gen) (off : Dword) (size : Nat) (s : State) : Res State := do
  let (a, s) ← readInt len src s
  let (l, k) ← placeField base off s
  let d : Dword ← l.readInt .d s
  let mask : Dword := BitVec.ofNat 32 (2 ^ size - 1) <<< k
  let (v, s) :=
    if fieldFits k size then (d &&& ~~~mask ||| a.setWidth 32 <<< k &&& mask, s)
    else
      let (x, s) := s.drawFree
      (x.setWidth 32, s)
  let s ← l.writeInt .d v s
  return s.advance i

/-- EXTi: the offset is in a register, the length is the displacement (R252, log entry 29). -/
def execExti (len : IntLen) (off : Reg) (base dst : Gen) (disp : Disp) (s : State) : Host.Outcome State Fault Refusal :=
  finish (extractField (.exti len off base dst disp) len base dst (s.reg off) disp.val.toNat s)

/-- INSi: the offset is in a register, the length is the displacement (R255, log entry 29). -/
def execInsi (len : IntLen) (off : Reg) (src base : Gen) (disp : Disp) (s : State) : Host.Outcome State Fault Refusal :=
  finish (insertField (.insi len off src base disp) len src base (s.reg off) disp.val.toNat s)

/-- EXTSi: offset and length less one are in the instruction (R253, log entry 29). -/
def execExtsi (len : IntLen) (base dst : Gen) (off : BitVec 3) (size : BitVec 5) (s : State) :
    Host.Outcome State Fault Refusal :=
  finish (extractField (.extsi len base dst off size) len base dst (off.setWidth 32) (size.toNat + 1) s)

/-- INSSi: offset and length less one are in the instruction (R256, log entry 29). -/
def execInssi (len : IntLen) (src base : Gen) (off : BitVec 3) (size : BitVec 5) (s : State) :
    Host.Outcome State Fault Refusal :=
  finish (insertField (.inssi len src base off size) len src base (off.setWidth 32) (size.toNat + 1) s)

end Sys2Proof.Machine
end

