-- ==== Sys2Proof/Machine/Branch.lean ====
section
/-! DEFINITION. Branches (R237, R258, R416, R417, R421, R426), procedure calls and returns (R236, R245, R246, R257, R282, R286), the
frame and the register lists (R227, R250, R251, R281, R287). The instructions that flush the instruction queue (R66) forget
`unflushed` before their own stores. -/

namespace Sys2Proof.Machine

/-- Go to a displacement from the instruction's address, flushing the instruction queue (R66, R416). -/
def branchBy (disp : Dword) (s : State) : State := s.flushQueue.setPc (s.pc + disp)

/-- BR (R417). -/
def execBr (disp : Disp) (s : State) : Host.Outcome State Fault Refusal := finish (.ok (branchBy disp.val s))

/-- Bcond (R416). -/
def execBcond (cond : Cond) (disp : Disp) (s : State) : Host.Outcome State Fault Refusal :=
  finish (.ok (if condHolds cond s then branchBy disp.val s else s.advance (.bcond cond disp)))

/-- ACBi (R426). -/
def acbOp (i : Instr) (len : IntLen) (q : Quick) (idx : Gen) (disp : Disp) (s : State) : Host.Outcome State Fault Refusal :=
  finish do
    let l ← place idx s
    let b ← l.readInt len s
    let v := b + quickVal len q
    if v = 0#(lenBits len) then
      let s ← l.writeInt len v s
      return s.advance i
    else
      let s ← l.writeInt len v s.flushQueue
      return s.setPc (s.pc + disp.val)

/-- ACBB (R426). -/
def execAcbb (q : Quick) (idx : Gen) (disp : Disp) (s : State) : Host.Outcome State Fault Refusal :=
  acbOp (.acbb q idx disp) .b q idx disp s

/-- ACBW (R426). -/
def execAcbw (q : Quick) (idx : Gen) (disp : Disp) (s : State) : Host.Outcome State Fault Refusal :=
  acbOp (.acbw q idx disp) .w q idx disp s

/-- ACBD (R426). -/
def execAcbd (q : Quick) (idx : Gen) (disp : Disp) (s : State) : Host.Outcome State Fault Refusal :=
  acbOp (.acbd q idx disp) .d q idx disp s

/-- CASEi: the source, sign-extended, is added to the instruction's address (R237, log entry 50). -/
def caseOp (len : IntLen) (src : Gen) (s : State) : Host.Outcome State Fault Refusal :=
  finish do
    let (v, s) ← readInt len src s.flushQueue
    return s.setPc (s.pc + v.signExtend 32)

/-- CASEB (R237, log entry 50). -/
def execCaseb (src : Gen) (s : State) : Host.Outcome State Fault Refusal := caseOp .b src s

/-- CASEW (R237, log entry 50). -/
def execCasew (src : Gen) (s : State) : Host.Outcome State Fault Refusal := caseOp .w src s

/-- CASED (R237, log entry 50). -/
def execCased (src : Gen) (s : State) : Host.Outcome State Fault Refusal := caseOp .d src s

/-- JUMP: to the effective address (R258, log entry 50). -/
def execJump (dst : Gen) (s : State) : Host.Outcome State Fault Refusal :=
  finish do
    let a ← effAddr dst s
    return s.flushQueue.setPc a

/-- NOP (R421). -/
def execNop (s : State) : Host.Outcome State Fault Refusal := finish (.ok (s.advance .nop))

/-! ### Procedures (log entry 50) -/

/-- The address of the instruction that follows `i`. -/
def State.returnAddress (s : State) (i : Instr) : Dword := s.pc + BitVec.ofNat 32 i.size

/-- BSR: push the address of the next instruction and branch (R236, log entry 50). -/
def execBsr (disp : Disp) (s : State) : Host.Outcome State Fault Refusal :=
  finish do
    let t ← s.flushQueue.push32 (s.returnAddress (.bsr disp))
    return t.setPc (s.pc + disp.val)

/-- JSR: push the address of the next instruction and jump (R257, log entry 50). DESIGN CHOICE: the effective address is taken
before the push, so an SP-based one uses the old SP (log entry 51). -/
def execJsr (dst : Gen) (s : State) : Host.Outcome State Fault Refusal :=
  finish do
    let a ← effAddr dst s
    let t ← s.flushQueue.push32 (s.returnAddress (.jsr dst))
    return t.setPc a

/-- RET: pop PC and add the displacement to SP (R282, log entry 50). -/
def execRet (disp : Disp) (s : State) : Host.Outcome State Fault Refusal :=
  finish do
    let (a, s) ← s.flushQueue.pop32
    return (s.setSp (s.sp + disp.val)).setPc a

/-- Call the procedure of a descriptor: push MOD (the upper half of its double-word is open, log entry 30) and the
return address, and enter the module. DESIGN CHOICE: the caller has read the descriptor before these pushes, and the module
table is read after them (log entry 51). -/
def callExternal (i : Instr) (descriptor : Dword) (s : State) : Res State := do
  let ret := s.returnAddress i
  let (x, s) := s.drawFree
  let s ← s.push32 (x.setWidth 16 ++ s.mod)
  let s ← s.push32 ret
  s.enterModule descriptor

/-- CXP: the descriptor is the entry of the link table, whose address is at MOD + 4, with the number `disp`
(R245, log entries 30, 50 and 51). -/
def execCxp (disp : Disp) (s : State) : Host.Outcome State Fault Refusal :=
  finish do
    let s := s.flushQueue
    let table ← s.load32 (s.mod.setWidth 32 + 4#32)
    let d ← s.load32 (table + 4#32 * disp.val)
    callExternal (.cxp disp) d s

/-- CXPD: the descriptor is at the effective address (R246, log entries 30 and 50). DESIGN CHOICE: the address is taken and the
descriptor read before the pushes (log entry 51). -/
def execCxpd (desc : Gen) (s : State) : Host.Outcome State Fault Refusal :=
  finish do
    let s := s.flushQueue
    let a ← effAddr desc s
    let d ← s.load32 a
    callExternal (.cxpd desc) d s

/-- RXP: pop PC and MOD, add the displacement to SP, reload SB (R286, log entries 30, 50 and 51). -/
def execRxp (disp : Disp) (s : State) : Host.Outcome State Fault Refusal :=
  finish do
    let (pc, s) ← s.flushQueue.pop32
    let (w, s) ← s.pop32
    let m : Word16 := w.setWidth 16
    let sb ← s.load32 (m.setWidth 32)
    return { s.setSp (s.sp + disp.val) with mod := m, sb := sb, pc := pc }

/-! ### The frame and the register lists (log entry 41) -/

/-- ADJSPi: subtract the source, sign-extended, from SP (R227, log entry 50). DESIGN CHOICE: a source on Top of stack is popped
first (log entry 51). -/
def adjspOp (i : Instr) (len : IntLen) (src : Gen) (s : State) : Host.Outcome State Fault Refusal :=
  finish do
    let (v, s) ← readInt len src s
    return (s.setSp (s.sp - v.signExtend 32)).advance i

/-- ADJSPB (R227, log entry 50). -/
def execAdjspb (src : Gen) (s : State) : Host.Outcome State Fault Refusal := adjspOp (.adjspb src) .b src s

/-- ADJSPW (R227, log entry 50). -/
def execAdjspw (src : Gen) (s : State) : Host.Outcome State Fault Refusal := adjspOp (.adjspw src) .w src s

/-- ADJSPD (R227, log entry 50). -/
def execAdjspd (src : Gen) (s : State) : Host.Outcome State Fault Refusal := adjspOp (.adjspd src) .d src s

/-- The registers of a list byte, R0 at bit 0 (SAVE and ENTER). -/
def saveList (list : Byte) : List Reg :=
  [Reg.r0, .r1, .r2, .r3, .r4, .r5, .r6, .r7].filter (fun r => list.getLsbD r.code.toNat)

/-- The registers of a list byte, R7 at bit 0 (RESTORE and EXIT). -/
def restoreList (list : Byte) : List Reg :=
  [Reg.r7, .r6, .r5, .r4, .r3, .r2, .r1, .r0].filter (fun r => list.getLsbD (7 - r.code.toNat))

/-- Push registers in order. -/
def pushRegs : List Reg → State → Res State
  | [], s => .ok s
  | r :: rs, s => do
    let s ← s.push32 (s.reg r)
    pushRegs rs s

/-- Pop registers in order. -/
def popRegs : List Reg → State → Res State
  | [], s => .ok s
  | r :: rs, s => do
    let (v, s) ← s.pop32
    popRegs rs (s.setReg r v)

/-- SAVE (R287, log entry 41). -/
def execSave (list : Byte) (s : State) : Host.Outcome State Fault Refusal :=
  finish do
    let s ← pushRegs (saveList list) s
    return s.advance (.save list)

/-- RESTORE (R281, log entry 41). -/
def execRestore (list : Byte) (s : State) : Host.Outcome State Fault Refusal :=
  finish do
    let s ← popRegs (restoreList list) s
    return s.advance (.restore list)

/-- ENTER: push FP, FP becomes SP, SP goes down by `disp`, then the registers are pushed (R250, log entry 41). -/
def execEnter (list : Byte) (disp : Disp) (s : State) : Host.Outcome State Fault Refusal :=
  finish do
    let s ← s.push32 s.fp
    let s := { s with fp := s.sp }
    let s ← pushRegs (saveList list) (s.setSp (s.sp - disp.val))
    return s.advance (.enter list disp)

/-- EXIT: pop the registers, SP becomes FP, pop FP (R251, log entry 41). -/
def execExit (list : Byte) (s : State) : Host.Outcome State Fault Refusal :=
  finish do
    let s ← popRegs (restoreList list) s
    let (v, s) ← (s.setSp s.fp).pop32
    return { s with fp := v }.advance (.exit list)

end Sys2Proof.Machine
end

