-- ==== Sys2Proof/Machine/Float.lean ====
section
/-! DEFINITION. The floating-point instructions (R34, R93, R300 to R319). The external unit computes: values and FSR come from
`Config.fpuAnswer` (log entry 19); the CPU moves the operands. -/

namespace Sys2Proof.Machine

/-- The floating-point instructions take the undefined instruction trap while CFG.F is 0 (R93). -/
def withFpu (s : State) (r : Res State) : Host.Outcome State Fault Refusal :=
  finish (if s.cfg.getLsbD 1 then r else takeException .und s.pc s)

/-- Ask the floating-point unit: its value, cut to `outBits`, and the state with the FSR it leaves. -/
def askFpu (op : Config.FpuOp) (inBits outBits : Nat) (args : List Quad) (s : State) : Quad × State :=
  let answer := Config.fpuAnswer op inBits outBits s.fsr args
  ((answer.value.setWidth outBits).setWidth 64, { s with fsr := answer.fsr })

/-- A computation on two operands of one format: `dst` is read and written. -/
def floatBinary (i : Instr) (op : Config.FpuOp) (fl : FLen) (src dst : Gen) (s : State) : Host.Outcome State Fault Refusal :=
  withFpu s do
    let (a, s) ← readFloat fl src s
    let l ← place dst s
    let b ← l.readFloat fl s
    let (r, s) := askFpu op (8 * fl.bytes) (8 * fl.bytes) [a, b] s
    let s ← l.writeFloat fl r s
    return s.advance i

/-- A computation from one floating operand to another, of one or of two formats. -/
def floatUnary (i : Instr) (op : Config.FpuOp) (fl1 fl2 : FLen) (src dst : Gen) (s : State) :
    Host.Outcome State Fault Refusal :=
  withFpu s do
    let (a, s) ← readFloat fl1 src s
    let (r, s) := askFpu op (8 * fl1.bytes) (8 * fl2.bytes) [a] s
    let s ← writeFloat fl2 dst r s
    return s.advance i

/-- A conversion from a floating operand to an integer one. -/
def floatToInt (i : Instr) (op : Config.FpuOp) (fl : FLen) (len : IntLen) (src dst : Gen) (s : State) :
    Host.Outcome State Fault Refusal :=
  withFpu s do
    let (a, s) ← readFloat fl src s
    let (r, s) := askFpu op (8 * fl.bytes) (lenBits len) [a] s
    let s ← writeInt len dst (r.setWidth (lenBits len)) s
    return s.advance i

/-- DOTf and POLYf: both operands are read in the format `f`; the accumulator is L0, 64 bits, for either format (R34, R316,
R318, log entry 19). -/
def floatAccumulate (i : Instr) (op : Config.FpuOp) (fl : FLen) (src1 src2 : Gen) (s : State) :
    Host.Outcome State Fault Refusal :=
  withFpu s do
    let (a, s) ← readFloat fl src1 s
    let (b, s) ← readFloat fl src2 s
    let (r, s) := askFpu op (8 * fl.bytes) 64 [a, b, s.longReg .r0] s
    return (s.setLongReg .r0 r).advance i

/-- ADDf (R301). -/
def execAddf (fl : FLen) (src dst : Gen) (s : State) : Host.Outcome State Fault Refusal :=
  floatBinary (.addf fl src dst) .add fl src dst s

/-- SUBf (R314). -/
def execSubf (fl : FLen) (src dst : Gen) (s : State) : Host.Outcome State Fault Refusal :=
  floatBinary (.subf fl src dst) .sub fl src dst s

/-- MULf (R310). -/
def execMulf (fl : FLen) (src dst : Gen) (s : State) : Host.Outcome State Fault Refusal :=
  floatBinary (.mulf fl src dst) .mul fl src dst s

/-- DIVf (R303). -/
def execDivf (fl : FLen) (src dst : Gen) (s : State) : Host.Outcome State Fault Refusal :=
  floatBinary (.divf fl src dst) .div fl src dst s

/-- SCALBf (R319). -/
def execScalbf (fl : FLen) (src dst : Gen) (s : State) : Host.Outcome State Fault Refusal :=
  floatBinary (.scalbf fl src dst) .scalb fl src dst s

/-- NEGf (R311). -/
def execNegf (fl : FLen) (src dst : Gen) (s : State) : Host.Outcome State Fault Refusal :=
  floatUnary (.negf fl src dst) .neg fl fl src dst s

/-- ABSf (R300). -/
def execAbsf (fl : FLen) (src dst : Gen) (s : State) : Host.Outcome State Fault Refusal :=
  floatUnary (.absf fl src dst) .abs fl fl src dst s

/-- LOGBf (R317). -/
def execLogbf (fl : FLen) (src dst : Gen) (s : State) : Host.Outcome State Fault Refusal :=
  floatUnary (.logbf fl src dst) .logb fl fl src dst s

/-- MOVf: the value is moved as it is; the FSR is the unit's (R306). -/
def execMovf (fl : FLen) (src dst : Gen) (s : State) : Host.Outcome State Fault Refusal :=
  withFpu s do
    let (a, s) ← readFloat fl src s
    let (_, s) := askFpu .mov (8 * fl.bytes) (8 * fl.bytes) [a] s
    let s ← writeFloat fl dst a s
    return s.advance (.movf fl src dst)

/-- MOVLF: Long to Float (R309). The `f` and `i` fields are not used (log entry 20). -/
def execMovlf (fl : FLen) (len : IntLen) (src dst : Gen) (s : State) : Host.Outcome State Fault Refusal :=
  floatUnary (.movlf fl len src dst) .movLF .long .float src dst s

/-- MOVFL: Float to Long (R307). -/
def execMovfl (fl : FLen) (len : IntLen) (src dst : Gen) (s : State) : Host.Outcome State Fault Refusal :=
  floatUnary (.movfl fl len src dst) .movFL .float .long src dst s

/-- MOVif: integer to Float or Long (R308). -/
def execMovif (fl : FLen) (len : IntLen) (src dst : Gen) (s : State) : Host.Outcome State Fault Refusal :=
  withFpu s do
    let (a, s) ← readInt len src s
    let (r, s) := askFpu .movIF (lenBits len) (8 * fl.bytes) [a.setWidth 64] s
    let s ← writeFloat fl dst r s
    return s.advance (.movif fl len src dst)

/-- ROUNDfi (R312). -/
def execRoundfi (fl : FLen) (len : IntLen) (src dst : Gen) (s : State) : Host.Outcome State Fault Refusal :=
  floatToInt (.roundfi fl len src dst) .round fl len src dst s

/-- TRUNCfi (R315, log entry 19). -/
def execTruncfi (fl : FLen) (len : IntLen) (src dst : Gen) (s : State) : Host.Outcome State Fault Refusal :=
  floatToInt (.truncfi fl len src dst) .trunc fl len src dst s

/-- FLOORfi (R304). -/
def execFloorfi (fl : FLen) (len : IntLen) (src dst : Gen) (s : State) : Host.Outcome State Fault Refusal :=
  floatToInt (.floorfi fl len src dst) .floor fl len src dst s

/-- CMPf: Z, N and L are the unit's answer (R302). -/
def execCmpf (fl : FLen) (src1 src2 : Gen) (s : State) : Host.Outcome State Fault Refusal :=
  withFpu s do
    let (a, s) ← readFloat fl src1 s
    let (b, s) ← readFloat fl src2 s
    let (r, s) := askFpu .cmp (8 * fl.bytes) 3 [a, b] s
    let s := ((s.setFlag .z (r.getLsbD 0)).setFlag .n (r.getLsbD 1)).setFlag .l (r.getLsbD 2)
    return s.advance (.cmpf fl src1 src2)

/-- POLYf (R318). -/
def execPolyf (fl : FLen) (src1 src2 : Gen) (s : State) : Host.Outcome State Fault Refusal :=
  floatAccumulate (.polyf fl src1 src2) .poly fl src1 src2 s

/-- DOTf (R316). -/
def execDotf (fl : FLen) (src1 src2 : Gen) (s : State) : Host.Outcome State Fault Refusal :=
  floatAccumulate (.dotf fl src1 src2) .dot fl src1 src2 s

/-- LFSR: load FSR from a double-word (R305, log entry 20). -/
def execLfsr (fl : FLen) (len : IntLen) (src : Gen) (spare : BitVec 5) (s : State) : Host.Outcome State Fault Refusal :=
  withFpu s do
    let (v, s) ← readInt .d src s
    return { s with fsr := v }.advance (.lfsr fl len src spare)

/-- SFSR: store FSR into a double-word (R313, log entry 20). -/
def execSfsr (fl : FLen) (len : IntLen) (spare : BitVec 5) (dst : Gen) (s : State) : Host.Outcome State Fault Refusal :=
  withFpu s do
    let s ← writeInt .d dst s.fsr s
    return s.advance (.sfsr fl len spare dst)

end Sys2Proof.Machine
end

