-- ==== Sys2Proof/Machine/Logic.lean ====
section
/-! DEFINITION. The logical instructions (R244, R277, R410 to R413) and the shifts and rotates (R285, R419, R420). -/

namespace Sys2Proof.Machine

/-- A two-operand logical instruction: no flags (R410 to R413). -/
def logicOp (i : Instr) (len : IntLen) (src dst : Gen) (s : State)
    (f : IntVal len → IntVal len → IntVal len) : Host.Outcome State Fault Refusal :=
  finish (binaryOp i len src dst s (fun t a b => (f a b, t)))

/-- ANDB (R410). -/
def execAndb (src dst : Gen) (s : State) : Host.Outcome State Fault Refusal :=
  logicOp (.andb src dst) .b src dst s (fun a b => b &&& a)

/-- ANDW (R410). -/
def execAndw (src dst : Gen) (s : State) : Host.Outcome State Fault Refusal :=
  logicOp (.andw src dst) .w src dst s (fun a b => b &&& a)

/-- ANDD (R410). -/
def execAndd (src dst : Gen) (s : State) : Host.Outcome State Fault Refusal :=
  logicOp (.andd src dst) .d src dst s (fun a b => b &&& a)

/-- ORB (R411). -/
def execOrb (src dst : Gen) (s : State) : Host.Outcome State Fault Refusal :=
  logicOp (.orb src dst) .b src dst s (fun a b => b ||| a)

/-- ORW (R411). -/
def execOrw (src dst : Gen) (s : State) : Host.Outcome State Fault Refusal :=
  logicOp (.orw src dst) .w src dst s (fun a b => b ||| a)

/-- ORD (R411). -/
def execOrd (src dst : Gen) (s : State) : Host.Outcome State Fault Refusal :=
  logicOp (.ord src dst) .d src dst s (fun a b => b ||| a)

/-- XORB (R412). -/
def execXorb (src dst : Gen) (s : State) : Host.Outcome State Fault Refusal :=
  logicOp (.xorb src dst) .b src dst s (fun a b => b ^^^ a)

/-- XORW (R412). -/
def execXorw (src dst : Gen) (s : State) : Host.Outcome State Fault Refusal :=
  logicOp (.xorw src dst) .w src dst s (fun a b => b ^^^ a)

/-- XORD (R412). -/
def execXord (src dst : Gen) (s : State) : Host.Outcome State Fault Refusal :=
  logicOp (.xord src dst) .d src dst s (fun a b => b ^^^ a)

/-- BICB (R413). -/
def execBicb (src dst : Gen) (s : State) : Host.Outcome State Fault Refusal :=
  logicOp (.bicb src dst) .b src dst s (fun a b => b &&& ~~~a)

/-- BICW (R413). -/
def execBicw (src dst : Gen) (s : State) : Host.Outcome State Fault Refusal :=
  logicOp (.bicw src dst) .w src dst s (fun a b => b &&& ~~~a)

/-- BICD (R413). -/
def execBicd (src dst : Gen) (s : State) : Host.Outcome State Fault Refusal :=
  logicOp (.bicd src dst) .d src dst s (fun a b => b &&& ~~~a)

/-- COMi: complement all bits (R244, log entry 1). -/
def execComi (len : IntLen) (src dst : Gen) (s : State) : Host.Outcome State Fault Refusal :=
  finish (unaryOp (.comi len src dst) len src dst s (fun t a => (~~~a, t)))

/-- NOTi: complement the boolean, bit 0 (R277, log entry 50). -/
def execNoti (len : IntLen) (src dst : Gen) (s : State) : Host.Outcome State Fault Refusal :=
  finish (unaryOp (.noti len src dst) len src dst s (fun t a => (a ^^^ 1#(lenBits len), t)))

/-! ### Shifts -/

/-- A shift by the signed byte `count`. A count outside -w .. w is not allowed (R419): the result is then open (log
entry 23). -/
def shiftResult {w : Nat} (left right : BitVec w → Nat → BitVec w) (s : State) (count : Byte) (v : BitVec w) :
    BitVec w × State :=
  if w < count.toInt.natAbs then
    let (x, s) := s.drawFree
    (x.setWidth w, s)
  else if count.msb then (right v count.toInt.natAbs, s)
  else (left v count.toNat, s)

/-- A shift instruction: the count is always a byte (R419). -/
def shiftOp (i : Instr) (len : IntLen) (cnt dst : Gen) (s : State)
    (left right : IntVal len → Nat → IntVal len) : Host.Outcome State Fault Refusal :=
  finish do
    let (n, s) ← readInt .b cnt s
    let l ← place dst s
    let v ← l.readInt len s
    let (r, s) := shiftResult left right s n v
    let s ← l.writeInt len r s
    return s.advance i

/-- LSHi (R419). -/
def execLshi (len : IntLen) (cnt dst : Gen) (s : State) : Host.Outcome State Fault Refusal :=
  shiftOp (.lshi len cnt dst) len cnt dst s (fun v n => v <<< n) (fun v n => v >>> n)

/-- ASHi (R420). -/
def execAshi (len : IntLen) (cnt dst : Gen) (s : State) : Host.Outcome State Fault Refusal :=
  shiftOp (.ashi len cnt dst) len cnt dst s (fun v n => v <<< n) (fun v n => v.sshiftRight n)

/-- ROTi: the bits that leave at one end enter at the other (R285, log entry 50). -/
def execRoti (len : IntLen) (cnt dst : Gen) (s : State) : Host.Outcome State Fault Refusal :=
  shiftOp (.roti len cnt dst) len cnt dst s (fun v n => v.rotateLeft n) (fun v n => v.rotateRight n)

end Sys2Proof.Machine
end

