-- ==== Sys2Proof/Machine/Move.lean ====
section
/-! DEFINITION. Moves (R404 to R406, R427), ADDR (R418), Scondi (R288) and the block moves and compares (R240, R264). -/

namespace Sys2Proof.Machine

/-- MOVi (R404). -/
def movOp (i : Instr) (len : IntLen) (src dst : Gen) (s : State) : Host.Outcome State Fault Refusal :=
  finish do
    let (a, s) ← readInt len src s
    let s ← writeInt len dst a s
    return s.advance i

/-- Write a value that is known from the instruction or the flags. -/
def storeOp (i : Instr) (len : IntLen) (v : IntVal len) (dst : Gen) (s : State) : Host.Outcome State Fault Refusal :=
  finish do
    let s ← writeInt len dst v s
    return s.advance i

/-- A move from one length to a longer one (R406, R427). -/
def extendOp (i : Instr) (len1 len2 : IntLen) (src dst : Gen) (s : State) (f : IntVal len1 → IntVal len2) :
    Host.Outcome State Fault Refusal :=
  finish do
    let (a, s) ← readInt len1 src s
    let s ← writeInt len2 dst (f a) s
    return s.advance i

/-- MOVB (R404). -/
def execMovb (src dst : Gen) (s : State) : Host.Outcome State Fault Refusal := movOp (.movb src dst) .b src dst s

/-- MOVW (R404). -/
def execMovw (src dst : Gen) (s : State) : Host.Outcome State Fault Refusal := movOp (.movw src dst) .w src dst s

/-- MOVD (R404). -/
def execMovd (src dst : Gen) (s : State) : Host.Outcome State Fault Refusal := movOp (.movd src dst) .d src dst s

/-- MOVQB (R405). -/
def execMovqb (q : Quick) (dst : Gen) (s : State) : Host.Outcome State Fault Refusal :=
  storeOp (.movqb q dst) .b (quickVal .b q) dst s

/-- MOVQW (R405). -/
def execMovqw (q : Quick) (dst : Gen) (s : State) : Host.Outcome State Fault Refusal :=
  storeOp (.movqw q dst) .w (quickVal .w q) dst s

/-- MOVQD (R405). -/
def execMovqd (q : Quick) (dst : Gen) (s : State) : Host.Outcome State Fault Refusal :=
  storeOp (.movqd q dst) .d (quickVal .d q) dst s

/-- MOVZBW (R406). -/
def execMovzbw (src dst : Gen) (s : State) : Host.Outcome State Fault Refusal :=
  extendOp (.movzbw src dst) .b .w src dst s (fun v => v.setWidth 16)

/-- MOVZBD (R406). -/
def execMovzbd (src dst : Gen) (s : State) : Host.Outcome State Fault Refusal :=
  extendOp (.movzbd src dst) .b .d src dst s (fun v => v.setWidth 32)

/-- MOVZWD (R406). -/
def execMovzwd (src dst : Gen) (s : State) : Host.Outcome State Fault Refusal :=
  extendOp (.movzwd src dst) .w .d src dst s (fun v => v.setWidth 32)

/-- MOVXBW (R427). -/
def execMovxbw (src dst : Gen) (s : State) : Host.Outcome State Fault Refusal :=
  extendOp (.movxbw src dst) .b .w src dst s (fun v => v.signExtend 16)

/-- MOVXBD (R427). -/
def execMovxbd (src dst : Gen) (s : State) : Host.Outcome State Fault Refusal :=
  extendOp (.movxbd src dst) .b .d src dst s (fun v => v.signExtend 32)

/-- MOVXWD (R427). -/
def execMovxwd (src dst : Gen) (s : State) : Host.Outcome State Fault Refusal :=
  extendOp (.movxwd src dst) .w .d src dst s (fun v => v.signExtend 32)

/-- ADDR: the effective address (R418). -/
def execAddr (src dst : Gen) (s : State) : Host.Outcome State Fault Refusal :=
  finish do
    let a ← effAddr src s
    let s ← writeInt .d dst a s
    return s.advance (.addr src dst)

/-- The boolean of a condition: 1 or 0 (R288, log entry 50). -/
def condValue (len : IntLen) (c : Cond) (s : State) : IntVal len := BitVec.ofNat (lenBits len) (condHolds c s).toNat

/-- ScondB (R288, log entry 50). -/
def execScondb (cond : Cond) (dst : Gen) (s : State) : Host.Outcome State Fault Refusal :=
  storeOp (.scondb cond dst) .b (condValue .b cond s) dst s

/-- ScondW (R288, log entry 50). -/
def execScondw (cond : Cond) (dst : Gen) (s : State) : Host.Outcome State Fault Refusal :=
  storeOp (.scondw cond dst) .w (condValue .w cond s) dst s

/-- ScondD (R288, log entry 50). -/
def execScondd (cond : Cond) (dst : Gen) (s : State) : Host.Outcome State Fault Refusal :=
  storeOp (.scondd cond dst) .d (condValue .d cond s) dst s

/-! ### Blocks (log entry 18): the displacement is the count of elements less one -/

/-- Copy `n` elements, in order. -/
def copyBlock (bytes : Nat) : Nat → Dword → Dword → State → Res State
  | 0, _, _, s => .ok s
  | n + 1, a, b, s => do
    let v ← s.load bytes a
    let s ← s.store bytes b v
    copyBlock bytes n (a + BitVec.ofNat 32 bytes) (b + BitVec.ofNat 32 bytes) s

/-- Compare elements in order until two differ; the flags are those of the last comparison (R402). -/
def compareBlock (len : IntLen) : Nat → Dword → Dword → State → Res State
  | 0, _, _, s => .ok s
  | n + 1, a, b, s => do
    let x ← (Loc.mem a).readInt len s
    let y ← (Loc.mem b).readInt len s
    let s := s.setCompare x y
    if x = y then compareBlock len n (a + BitVec.ofNat 32 len.bytes) (b + BitVec.ofNat 32 len.bytes) s else .ok s

/-- The number of elements a block displacement names. -/
def blockCount (disp : Disp) : Nat := disp.val.toNat + 1

/-- MOVMi (R264, log entry 18). -/
def execMovmi (len : IntLen) (src dst : Gen) (disp : Disp) (s : State) : Host.Outcome State Fault Refusal :=
  finish do
    require disp.nonneg .blockLength
    let a ← effAddr src s
    let b ← effAddr dst s
    let s ← copyBlock len.bytes (blockCount disp) a b s
    return s.advance (.movmi len src dst disp)

/-- CMPMi (R240, log entry 18). -/
def execCmpmi (len : IntLen) (src1 src2 : Gen) (disp : Disp) (s : State) : Host.Outcome State Fault Refusal :=
  finish do
    require disp.nonneg .blockLength
    let a ← effAddr src1 s
    let b ← effAddr src2 s
    let s ← compareBlock len (blockCount disp) a b s
    return s.advance (.cmpmi len src1 src2 disp)

end Sys2Proof.Machine
end

