-- ==== Sys2Proof/Machine/Multiply.lean ====
section
/-! DEFINITION. Multiplication and division (R247, R249, R261, R262, R274, R279, R280), INDEXi (R212) and CHECKi (R238). -/

namespace Sys2Proof.Machine

/-- MULi: the low half of the product, no flags (R274, log entry 50). -/
def execMuli (len : IntLen) (src dst : Gen) (s : State) : Host.Outcome State Fault Refusal :=
  finish (binaryOp (.muli len src dst) len src dst s (fun t a b => (b * a, t)))

/-- A division: the divisor is `src`; 0 takes the divide-by-zero trap with nothing changed (R431, log entry 25). -/
def divideOp (i : Instr) (len : IntLen) (src dst : Gen) (s : State)
    (f : State → IntVal len → IntVal len → IntVal len × State) : Host.Outcome State Fault Refusal :=
  finish do
    let (a, _) ← readInt len src s
    if a = 0#(lenBits len) then takeException .dvz s.pc s else binaryOp i len src dst s f

/-- A signed quotient; where it does not fit, an open value (log entry 25). -/
def quotient {w : Nat} (q : Int) (s : State) : BitVec w × State :=
  if fitsSigned w q then (BitVec.ofInt w q, s)
  else
    let (x, s) := s.drawFree
    (x.setWidth w, s)

/-- QUOi: the quotient, rounded toward 0 (R279, log entry 25). -/
def execQuoi (len : IntLen) (src dst : Gen) (s : State) : Host.Outcome State Fault Refusal :=
  divideOp (.quoi len src dst) len src dst s (fun t a b => quotient (b.toInt.tdiv a.toInt) t)

/-- REMi: the remainder that belongs to QUOi (R280, log entry 25). -/
def execRemi (len : IntLen) (src dst : Gen) (s : State) : Host.Outcome State Fault Refusal :=
  divideOp (.remi len src dst) len src dst s (fun t a b => (BitVec.ofInt (lenBits len) (b.toInt.tmod a.toInt), t))

/-- DIVi: "Divide, round down" (R249, log entry 25). -/
def execDivi (len : IntLen) (src dst : Gen) (s : State) : Host.Outcome State Fault Refusal :=
  divideOp (.divi len src dst) len src dst s (fun t a b => quotient (b.toInt.fdiv a.toInt) t)

/-- MODi: "Remainder from DIV" (R262, log entry 25). -/
def execModi (len : IntLen) (src dst : Gen) (s : State) : Host.Outcome State Fault Refusal :=
  divideOp (.modi len src dst) len src dst s (fun t a b => (BitVec.ofInt (lenBits len) (b.toInt.fmod a.toInt), t))

/-! ### Extended multiplication and division (log entry 35) -/

/-- The odd register of the pair that an even register begins. -/
def pairHigh : Reg → Res Reg
  | .r0 => .ok .r1
  | .r2 => .ok .r3
  | .r4 => .ok .r5
  | .r6 => .ok .r7
  | .r1 | .r3 | .r5 | .r7 => .error (.fault .oddRegisterPair)

/-- Read both halves of a double-length operand: the low half, then the high half. -/
def readPair (len : IntLen) (l : Loc) (s : State) : Res (IntVal len × IntVal len) :=
  match l with
  | .reg r => do
    let h ← pairHigh r
    let lo ← (Loc.reg r).readInt len s
    let hi ← (Loc.reg h).readInt len s
    return (lo, hi)
  | .mem a => do
    let lo ← (Loc.mem a).readInt len s
    let hi ← (Loc.mem (a + BitVec.ofNat 32 len.bytes)).readInt len s
    return (lo, hi)
  | .imm _ => .error (.fault .immediateDestination)

/-- Write both halves of a double-length operand. -/
def writePair (len : IntLen) (l : Loc) (lo hi : IntVal len) (s : State) : Res State :=
  match l with
  | .reg r => do
    let h ← pairHigh r
    let s ← (Loc.reg r).writeInt len lo s
    (Loc.reg h).writeInt len hi s
  | .mem a => do
    let s ← (Loc.mem a).writeInt len lo s
    (Loc.mem (a + BitVec.ofNat 32 len.bytes)).writeInt len hi s
  | .imm _ => .error (.fault .immediateDestination)

/-- MEIi: the low half of `dst` times `src`, unsigned, into both halves of `dst` (R261, log entry 35). -/
def execMeii (len : IntLen) (src dst : Gen) (s : State) : Host.Outcome State Fault Refusal :=
  finish do
    let (a, s) ← readInt len src s
    let l ← place dst s
    let (lo, _) ← readPair len l s
    let p := lo.toNat * a.toNat
    let s ← writePair len l (BitVec.ofNat _ p) (BitVec.ofNat _ (p / 2 ^ lenBits len)) s
    return s.advance (.meii len src dst)

/-- The quotient and the remainder of a double-length dividend; open values where the quotient does not fit. -/
def extendedQuotient {w : Nat} (n d : Nat) (s : State) : BitVec w × BitVec w × State :=
  if n / d < 2 ^ w then (BitVec.ofNat w (n / d), BitVec.ofNat w (n % d), s)
  else
    let (x, s) := s.drawFree
    let (y, s) := s.drawFree
    (x.setWidth w, y.setWidth w, s)

/-- DEIi: both halves of `dst` divided by `src`, unsigned: the remainder into the low half, the quotient into the high
half; a divisor of 0 takes the divide-by-zero trap (R247, R431, log entries 25 and 35). DESIGN CHOICE: that trap comes before
the test for an odd register (log entry 51). -/
def execDeii (len : IntLen) (src dst : Gen) (s : State) : Host.Outcome State Fault Refusal :=
  finish do
    let (a, t) ← readInt len src s
    if a = 0#(lenBits len) then takeException .dvz s.pc s
    else
      let l ← place dst t
      let (lo, hi) ← readPair len l t
      let (q, r, t) := extendedQuotient (hi.toNat * 2 ^ lenBits len + lo.toNat) a.toNat t
      let t ← writePair len l r q t
      return t.advance (.deii len src dst)

/-! ### Array indices -/

/-- INDEXi: the accumulator times (`size` + 1) plus `idx` (R212, log entry 50). -/
def execIndexi (len : IntLen) (accum : Reg) (size idx : Gen) (s : State) : Host.Outcome State Fault Refusal :=
  finish do
    let (n, s) ← readInt len size s
    let (k, s) ← readInt len idx s
    let s := s.setReg accum (s.reg accum * (n.setWidth 32 + 1#32) + k.setWidth 32)
    return s.advance (.indexi len accum size idx)

/-- CHECKi: `bounds` is the address of the upper bound, the lower bound follows it. Inside the bounds F is 0 and the
register takes the source less the lower bound, its further bits open; outside F is 1 and the register is open (R238,
log entry 27). -/
def execChecki (len : IntLen) (dst : Reg) (bounds src : Gen) (s : State) : Host.Outcome State Fault Refusal :=
  finish do
    let b ← effAddr bounds s
    let hi ← (Loc.mem b).readInt len s
    let lo ← (Loc.mem (b + BitVec.ofNat 32 len.bytes)).readInt len s
    let (v, s) ← readInt len src s
    let (x, s) := s.drawFree
    let inside := lo.sle v && v.sle hi
    let r := if inside then mergeLow len.bytes (x.setWidth 32) ((v - lo).setWidth 32) else x.setWidth 32
    return ((s.setReg dst r).setFlag .f (!inside)).advance (.checki len dst bounds src)

end Sys2Proof.Machine
end

