-- ==== Sys2Proof/Machine/Strings.lean ====
section
/-! DEFINITION. The string instructions (R242, R243, R266, R267, R290, R291). Log entry 34: R0 counts, R1 is the source, R2 the
destination or the second string, R3 the translation table, R4 the match value. -/

namespace Sys2Proof.Machine

/-- The options of a string instruction: T, B, U/W. -/
structure StringOpts where
  translate : Bool
  back : Bool
  stop : StopRule
deriving DecidableEq, Repr

/-- What a string pointer moves by. -/
def StringOpts.delta (o : StringOpts) (len : IntLen) : Dword :=
  if o.back then -BitVec.ofNat 32 len.bytes else BitVec.ofNat 32 len.bytes

/-- Translate an element, with option T: a byte through the 256-byte table at R3; what a longer element becomes is open (log
entry 34). -/
def translateElement (len : IntLen) (v : IntVal len) (s : State) : Res (IntVal len × State) :=
  match len with
  | .b => do
    let x ← (Loc.mem (s.reg .r3 + v.setWidth 32)).readInt .b s
    return (x, s)
  | .w | .d =>
    let (x, s) := s.drawFree
    .ok (x.setWidth _, s)

/-- Read the next source element, translated with option T. -/
def stringElement (len : IntLen) (o : StringOpts) (s : State) : Res (IntVal len × State) := do
  let v ← (Loc.mem (s.reg .r1)).readInt len s
  if o.translate then translateElement len v s else .ok (v, s)

/-- The U/W option ends the string at this element: While stops at a difference from R4, Until at a match. -/
def stringStops (len : IntLen) (o : StringOpts) (v : IntVal len) (s : State) : Bool :=
  match o.stop with
  | .none => false
  | .whileMatch => v != (s.reg .r4).setWidth (lenBits len)
  | .untilMatch => v == (s.reg .r4).setWidth (lenBits len)

/-- Move R1 and, where the instruction uses it, R2 past an element, and count it in R0. -/
def stringAdvance (len : IntLen) (o : StringOpts) (both : Bool) (s : State) : State :=
  let s := s.setReg .r1 (s.reg .r1 + o.delta len)
  let s := if both then s.setReg .r2 (s.reg .r2 + o.delta len) else s
  s.setReg .r0 (s.reg .r0 - 1#32)

/-- Move elements until R0 is 0 or the U/W option stops the string; F says which. The options test the translated element, and
an element is stored before the next is read (log entry 34). -/
def moveString (len : IntLen) (o : StringOpts) : Nat → State → Res State
  | 0, s => .ok (s.setFlag .f false)
  | n + 1, s => do
    let (v, s) ← stringElement len o s
    if stringStops len o v s then return s.setFlag .f true
    let s ← (Loc.mem (s.reg .r2)).writeInt len v s
    moveString len o n (stringAdvance len o true s)

/-- Compare elements until R0 is 0, two differ or the U/W option stops the string. -/
def compareString (len : IntLen) (o : StringOpts) : Nat → State → Res State
  | 0, s => .ok s
  | n + 1, s => do
    let (v, s) ← stringElement len o s
    if stringStops len o v s then return s.setFlag .f true
    let y ← (Loc.mem (s.reg .r2)).readInt len s
    if v = y then compareString len o n (stringAdvance len o true s) else .ok (s.setCompare v y)

/-- Skip elements until R0 is 0 or the U/W option stops the string. -/
def skipString (len : IntLen) (o : StringOpts) : Nat → State → Res State
  | 0, s => .ok (s.setFlag .f false)
  | n + 1, s => do
    let (v, s) ← stringElement len o s
    if stringStops len o v s then return s.setFlag .f true
    skipString len o n (stringAdvance len o false s)

/-- The flags a string comparison starts from: equal, not stopped. -/
def compareStart (s : State) : State := (((s.setFlag .z true).setFlag .n false).setFlag .l false).setFlag .f false

/-- MOVSi (R266, log entry 34). -/
def execMovsi (len : IntLen) (back : Bool) (stop : StopRule) (s : State) : Host.Outcome State Fault Refusal :=
  finish do
    let s ← moveString len ⟨false, back, stop⟩ (s.reg .r0).toNat s
    return s.advance (.movsi len back stop)

/-- MOVSTi (R267, log entry 34). -/
def execMovsti (step : StringStep) (stop : StopRule) (s : State) : Host.Outcome State Fault Refusal :=
  finish do
    let s ← moveString step.len ⟨true, step.back, stop⟩ (s.reg .r0).toNat s
    return s.advance (.movsti step stop)

/-- CMPSi (R242, log entry 34). -/
def execCmpsi (len : IntLen) (back : Bool) (stop : StopRule) (s : State) : Host.Outcome State Fault Refusal :=
  finish do
    let s ← compareString len ⟨false, back, stop⟩ (s.reg .r0).toNat (compareStart s)
    return s.advance (.cmpsi len back stop)

/-- CMPSTi (R243, log entry 34). -/
def execCmpsti (step : StringStep) (stop : StopRule) (s : State) : Host.Outcome State Fault Refusal :=
  finish do
    let s ← compareString step.len ⟨true, step.back, stop⟩ (s.reg .r0).toNat (compareStart s)
    return s.advance (.cmpsti step stop)

/-- SKPSi (R290, log entry 34). -/
def execSkpsi (len : IntLen) (back : Bool) (stop : StopRule) (s : State) : Host.Outcome State Fault Refusal :=
  finish do
    let s ← skipString len ⟨false, back, stop⟩ (s.reg .r0).toNat s
    return s.advance (.skpsi len back stop)

/-- SKPSTi (R291, log entry 34). -/
def execSkpsti (step : StringStep) (stop : StopRule) (s : State) : Host.Outcome State Fault Refusal :=
  finish do
    let s ← skipString step.len ⟨true, step.back, stop⟩ (s.reg .r0).toNat s
    return s.advance (.skpsti step stop)

end Sys2Proof.Machine
end

