-- ==== Sys2Proof/Machine/System.lean ====
section
/-! DEFINITION. The dedicated registers (R29, R259, R292), PSR and CFG (R414, R415, R428), the traps and the returns from them (R234,
R254, R283, R284, R296, R431, R434), WAIT and DIA (R248, R297), and the 28 removed instructions (R92, R430). -/

namespace Sys2Proof.Machine

/-- Access to PSR and INTBASE by LPR and SPR is privileged (R29). -/
def aregPrivileged : AReg → Bool
  | .psr | .intbase => true
  | .upsr | .fp | .sp | .sb | .mod => false

/-- Read a dedicated register, zero-extended (R29). -/
def State.readAreg (s : State) (a : AReg) : Dword :=
  match a with
  | .upsr => (s.psr.setWidth 8).setWidth 32
  | .fp => s.fp
  | .sp => s.sp
  | .sb => s.sb
  | .psr => s.psr.setWidth 32
  | .intbase => s.intbase
  | .mod => s.mod.setWidth 32

/-- Write a dedicated register (R29): UPSR is the low byte of PSR. -/
def State.writeAreg (s : State) (a : AReg) (v : Dword) : State :=
  match a with
  | .upsr => s.setPsr (s.psr.extractLsb' 8 8 ++ v.setWidth 8)
  | .fp => { s with fp := v }
  | .sp => s.setSp v
  | .sb => { s with sb := v }
  | .psr => s.setPsr (v.setWidth 16)
  | .intbase => { s with intbase := v }
  | .mod => { s with mod := v.setWidth 16 }

/-- Bytes of a dedicated register. -/
def aregBytes : AReg → Nat
  | .upsr => 1
  | .psr | .mod => 2
  | .fp | .sp | .sb | .intbase => 4

/-- The value LPRi loads: the bits of a register longer than the operand are open (log entry 31). -/
def lprValue (len : IntLen) (a : AReg) (v : IntVal len) (s : State) : Dword × State :=
  if len.bytes < aregBytes a then
    let (x, s) := s.drawFree
    (mergeLow len.bytes (x.setWidth 32) (v.setWidth 32), s)
  else (v.setWidth 32, s)

/-- LPRi (R259, log entry 31). DESIGN CHOICE: the source is read whole, with the pop of Top of stack, before the register is
written, so that LPRi of SP from Top of stack leaves SP at the loaded value (log entry 51). -/
def lprOp (i : Instr) (len : IntLen) (a : AReg) (src : Gen) (s : State) : Host.Outcome State Fault Refusal :=
  let effect : Res State := do
    let (v, s) ← readInt len src s
    let (w, s) := lprValue len a v s
    return (s.writeAreg a w).advance i
  finish (if aregPrivileged a then privileged s effect else effect)

/-- SPRi (R292): a register shorter than the operand is zero-extended (log entry 31). DESIGN CHOICE: the register is read before
the operand is written, so that SPRi of SP to Top of stack stores the old SP (log entry 51). -/
def sprOp (i : Instr) (len : IntLen) (a : AReg) (dst : Gen) (s : State) : Host.Outcome State Fault Refusal :=
  let effect : Res State := do
    let s ← writeInt len dst ((s.readAreg a).setWidth (lenBits len)) s
    return s.advance i
  finish (if aregPrivileged a then privileged s effect else effect)

/-- LPRB (R259, log entry 31). -/
def execLprb (areg : AReg) (src : Gen) (s : State) : Host.Outcome State Fault Refusal :=
  lprOp (.lprb areg src) .b areg src s

/-- LPRW (R259, log entry 31). -/
def execLprw (areg : AReg) (src : Gen) (s : State) : Host.Outcome State Fault Refusal :=
  lprOp (.lprw areg src) .w areg src s

/-- LPRD (R259, log entry 31). -/
def execLprd (areg : AReg) (src : Gen) (s : State) : Host.Outcome State Fault Refusal :=
  lprOp (.lprd areg src) .d areg src s

/-- SPRB (R292, log entry 31). -/
def execSprb (areg : AReg) (dst : Gen) (s : State) : Host.Outcome State Fault Refusal :=
  sprOp (.sprb areg dst) .b areg dst s

/-- SPRW (R292, log entry 31). -/
def execSprw (areg : AReg) (dst : Gen) (s : State) : Host.Outcome State Fault Refusal :=
  sprOp (.sprw areg dst) .w areg dst s

/-- SPRD (R292, log entry 31). -/
def execSprd (areg : AReg) (dst : Gen) (s : State) : Host.Outcome State Fault Refusal :=
  sprOp (.sprd areg dst) .d areg dst s

/-- BICPSRi and BISPSRi: change bits of PSR (R414, R415). The byte and word forms run it on the state with the instruction
queue flushed, as R66 lists them; the double-word forms do not flush. -/
def psrOp (i : Instr) (len : IntLen) (src : Gen) (s : State) (f : Word16 → Word16 → Word16) : Res State := do
  let (v, s) ← readInt len src s
  return (s.setPsr (f s.psr (v.setWidth 16))).advance i

/-- BICPSRB: user mode may run it (R414). -/
def execBicpsrb (src : Gen) (s : State) : Host.Outcome State Fault Refusal :=
  finish (psrOp (.bicpsrb src) .b src s.flushQueue (fun psr v => psr &&& ~~~v))

/-- BICPSRW: privileged (R414). -/
def execBicpsrw (src : Gen) (s : State) : Host.Outcome State Fault Refusal :=
  finish (privileged s (psrOp (.bicpsrw src) .w src s.flushQueue (fun psr v => psr &&& ~~~v)))

/-- BICPSRD: as BICPSRW, with the low half of the operand (log entry 32), but R66 does not list it among the instructions that
flush the instruction queue (log entry 16). -/
def execBicpsrd (src : Gen) (s : State) : Host.Outcome State Fault Refusal :=
  finish (privileged s (psrOp (.bicpsrd src) .d src s (fun psr v => psr &&& ~~~v)))

/-- BISPSRB: user mode may run it (R415). -/
def execBispsrb (src : Gen) (s : State) : Host.Outcome State Fault Refusal :=
  finish (psrOp (.bispsrb src) .b src s.flushQueue (fun psr v => psr ||| v))

/-- BISPSRW: privileged (R415). -/
def execBispsrw (src : Gen) (s : State) : Host.Outcome State Fault Refusal :=
  finish (privileged s (psrOp (.bispsrw src) .w src s.flushQueue (fun psr v => psr ||| v)))

/-- BISPSRD: as BISPSRW, with the low half of the operand (log entry 32), but R66 does not list it among the instructions that
flush the instruction queue (log entry 16). -/
def execBispsrd (src : Gen) (s : State) : Host.Outcome State Fault Refusal :=
  finish (privileged s (psrOp (.bispsrd src) .d src s (fun psr v => psr ||| v)))

/-- SETCFG: privileged, loads the four bits of CFG (R428). -/
def execSetcfg (opts : BitVec 4) (s : State) : Host.Outcome State Fault Refusal :=
  finish (privileged s (.ok ({ s with cfg := opts }.advance (.setcfg opts))))

/-! ### Traps and returns -/

/-- Take a trap whose return address is the trapping instruction (R433 step 3). -/
def trapHere (e : Exception) (s : State) : Host.Outcome State Fault Refusal := finish (takeException e s.pc s)

/-- SVC (R296, R431, log entry 3). -/
def execSvc (s : State) : Host.Outcome State Fault Refusal := trapHere .svc s

/-- BPT (R234, R431, log entry 3). -/
def execBpt (s : State) : Host.Outcome State Fault Refusal := trapHere .bpt s

/-- FLAG: the flag trap when F is 1 (R254, R431, log entries 3 and 50). -/
def execFlag (s : State) : Host.Outcome State Fault Refusal :=
  if s.flag .f then trapHere .flg s else finish (.ok (s.advance .flag))

/-- RETT: privileged (R284, R434, R438, log entry 3). -/
def execRett (disp : Disp) (s : State) : Host.Outcome State Fault Refusal :=
  finish (privileged s (returnFromTrap disp.val s.flushQueue))

/-- RETI: RETT with displacement 0; the end-of-interrupt bus cycle is left out (R283, R434, log entry 43). -/
def execReti (s : State) : Host.Outcome State Fault Refusal :=
  finish (privileged s (returnFromTrap 0#32 s.flushQueue))

/-- WAIT: the CPU waits for an interrupt, which would return to the next instruction (R297, R444, log entry 14). -/
def execWait (s : State) : Host.Outcome State Fault Refusal := finish (.ok ({ s with waiting := true }.advance .wait))

/-- DIA: flushes the instruction queue and is fetched again (R248, R66, log entry 44). -/
def execDia (s : State) : Host.Outcome State Fault Refusal := finish (.ok s.flushQueue)

/-! ### Removed instructions: the undefined instruction trap (R92, R430) -/

/-- RDVAL (R332). -/
def execRdval (_word : Word16) (s : State) : Host.Outcome State Fault Refusal := trapHere .und s

/-- WRVAL (R333). -/
def execWrval (_word : Word16) (s : State) : Host.Outcome State Fault Refusal := trapHere .und s

/-- LMR (R330). -/
def execLmr (_word : Word16) (s : State) : Host.Outcome State Fault Refusal := trapHere .und s

/-- SMR (R331). -/
def execSmr (_word : Word16) (s : State) : Host.Outcome State Fault Refusal := trapHere .und s

/-- MOVSUI (R334). -/
def execMovsui (_word : Word16) (s : State) : Host.Outcome State Fault Refusal := trapHere .und s

/-- MOVUSI (R335). -/
def execMovusi (_word : Word16) (s : State) : Host.Outcome State Fault Refusal := trapHere .und s

/-- CATST0 (R354). -/
def execCatst0 (_word : Word16) (s : State) : Host.Outcome State Fault Refusal := trapHere .und s

/-- CATST1 (R355). -/
def execCatst1 (_word : Word16) (s : State) : Host.Outcome State Fault Refusal := trapHere .und s

/-- LCR (R356). -/
def execLcr (_word : Word16) (s : State) : Host.Outcome State Fault Refusal := trapHere .und s

/-- SCR (R357). -/
def execScr (_word : Word16) (s : State) : Host.Outcome State Fault Refusal := trapHere .und s

/-- CCV0CI (R346). -/
def execCcv0ci (_word : Word16) (s : State) : Host.Outcome State Fault Refusal := trapHere .und s

/-- CCV1CI (R347). -/
def execCcv1ci (_word : Word16) (s : State) : Host.Outcome State Fault Refusal := trapHere .und s

/-- CCV2CI (R348). -/
def execCcv2ci (_word : Word16) (s : State) : Host.Outcome State Fault Refusal := trapHere .und s

/-- CCV3CI (R349). -/
def execCcv3ci (_word : Word16) (s : State) : Host.Outcome State Fault Refusal := trapHere .und s

/-- CCV4DQ (R350). -/
def execCcv4dq (_word : Word16) (s : State) : Host.Outcome State Fault Refusal := trapHere .und s

/-- CCV5QD (R351). -/
def execCcv5qd (_word : Word16) (s : State) : Host.Outcome State Fault Refusal := trapHere .und s

/-- LCSR (R352). -/
def execLcsr (_word : Word16) (s : State) : Host.Outcome State Fault Refusal := trapHere .und s

/-- SCSR (R353). -/
def execScsr (_word : Word16) (s : State) : Host.Outcome State Fault Refusal := trapHere .und s

/-- CCAL0C (R336). -/
def execCcal0c (_word : Word16) (s : State) : Host.Outcome State Fault Refusal := trapHere .und s

/-- CCAL1C (R337). -/
def execCcal1c (_word : Word16) (s : State) : Host.Outcome State Fault Refusal := trapHere .und s

/-- CCAL2C (R338). -/
def execCcal2c (_word : Word16) (s : State) : Host.Outcome State Fault Refusal := trapHere .und s

/-- CCAL3C (R339). -/
def execCcal3c (_word : Word16) (s : State) : Host.Outcome State Fault Refusal := trapHere .und s

/-- CMOV0C (R340). -/
def execCmov0c (_word : Word16) (s : State) : Host.Outcome State Fault Refusal := trapHere .und s

/-- CMOV1C (R341). -/
def execCmov1c (_word : Word16) (s : State) : Host.Outcome State Fault Refusal := trapHere .und s

/-- CMOV2C (R342). -/
def execCmov2c (_word : Word16) (s : State) : Host.Outcome State Fault Refusal := trapHere .und s

/-- CMOV3C (R343). -/
def execCmov3c (_word : Word16) (s : State) : Host.Outcome State Fault Refusal := trapHere .und s

/-- CCMP0C (R344). -/
def execCcmp0c (_word : Word16) (s : State) : Host.Outcome State Fault Refusal := trapHere .und s

/-- CCMP1C (R345). -/
def execCcmp1c (_word : Word16) (s : State) : Host.Outcome State Fault Refusal := trapHere .und s

end Sys2Proof.Machine
end

