-- ==== Sys2Proof/Machine/Dispatch.lean ====
section
/-! DEFINITION. The dispatcher: one arm per constructor of Instr, each one call of the instruction's meaning. -/

namespace Sys2Proof.Machine

def exec (i : Instr) (s : State) : Host.Outcome State Fault Refusal :=
  match i with
  | .bbor da inv => Sys2Proof.Machine.execBbor da inv s
  | .bbfor => Sys2Proof.Machine.execBbfor s
  | .bbxor da inv => Sys2Proof.Machine.execBbxor da inv s
  | .bband da inv => Sys2Proof.Machine.execBband da inv s
  | .bbstod da inv => Sys2Proof.Machine.execBbstod da inv s
  | .extblt => Sys2Proof.Machine.execExtblt s
  | .movmpb => Sys2Proof.Machine.execMovmpb s
  | .movmpw => Sys2Proof.Machine.execMovmpw s
  | .movmpd => Sys2Proof.Machine.execMovmpd s
  | .bitwt => Sys2Proof.Machine.execBitwt s
  | .tbits ones => Sys2Proof.Machine.execTbits ones s
  | .sbitps => Sys2Proof.Machine.execSbitps s
  | .sbits => Sys2Proof.Machine.execSbits s
  | .br disp => Sys2Proof.Machine.execBr disp s
  | .bcond cond disp => Sys2Proof.Machine.execBcond cond disp s
  | .bsr disp => Sys2Proof.Machine.execBsr disp s
  | .ret disp => Sys2Proof.Machine.execRet disp s
  | .cxp disp => Sys2Proof.Machine.execCxp disp s
  | .rxp disp => Sys2Proof.Machine.execRxp disp s
  | .rett disp => Sys2Proof.Machine.execRett disp s
  | .reti => Sys2Proof.Machine.execReti s
  | .save list => Sys2Proof.Machine.execSave list s
  | .restore list => Sys2Proof.Machine.execRestore list s
  | .enter list disp => Sys2Proof.Machine.execEnter list disp s
  | .exit list => Sys2Proof.Machine.execExit list s
  | .nop => Sys2Proof.Machine.execNop s
  | .wait => Sys2Proof.Machine.execWait s
  | .dia => Sys2Proof.Machine.execDia s
  | .flag => Sys2Proof.Machine.execFlag s
  | .svc => Sys2Proof.Machine.execSvc s
  | .bpt => Sys2Proof.Machine.execBpt s
  | .addqb q dst => Sys2Proof.Machine.execAddqb q dst s
  | .addqw q dst => Sys2Proof.Machine.execAddqw q dst s
  | .addqd q dst => Sys2Proof.Machine.execAddqd q dst s
  | .cmpqb q src => Sys2Proof.Machine.execCmpqb q src s
  | .cmpqw q src => Sys2Proof.Machine.execCmpqw q src s
  | .cmpqd q src => Sys2Proof.Machine.execCmpqd q src s
  | .sprb areg dst => Sys2Proof.Machine.execSprb areg dst s
  | .sprw areg dst => Sys2Proof.Machine.execSprw areg dst s
  | .sprd areg dst => Sys2Proof.Machine.execSprd areg dst s
  | .scondb cond dst => Sys2Proof.Machine.execScondb cond dst s
  | .scondw cond dst => Sys2Proof.Machine.execScondw cond dst s
  | .scondd cond dst => Sys2Proof.Machine.execScondd cond dst s
  | .acbb q idx disp => Sys2Proof.Machine.execAcbb q idx disp s
  | .acbw q idx disp => Sys2Proof.Machine.execAcbw q idx disp s
  | .acbd q idx disp => Sys2Proof.Machine.execAcbd q idx disp s
  | .movqb q dst => Sys2Proof.Machine.execMovqb q dst s
  | .movqw q dst => Sys2Proof.Machine.execMovqw q dst s
  | .movqd q dst => Sys2Proof.Machine.execMovqd q dst s
  | .lprb areg src => Sys2Proof.Machine.execLprb areg src s
  | .lprw areg src => Sys2Proof.Machine.execLprw areg src s
  | .lprd areg src => Sys2Proof.Machine.execLprd areg src s
  | .cxpd desc => Sys2Proof.Machine.execCxpd desc s
  | .bicpsrb src => Sys2Proof.Machine.execBicpsrb src s
  | .bicpsrw src => Sys2Proof.Machine.execBicpsrw src s
  | .bicpsrd src => Sys2Proof.Machine.execBicpsrd src s
  | .jump dst => Sys2Proof.Machine.execJump dst s
  | .bispsrb src => Sys2Proof.Machine.execBispsrb src s
  | .bispsrw src => Sys2Proof.Machine.execBispsrw src s
  | .bispsrd src => Sys2Proof.Machine.execBispsrd src s
  | .adjspb src => Sys2Proof.Machine.execAdjspb src s
  | .adjspw src => Sys2Proof.Machine.execAdjspw src s
  | .adjspd src => Sys2Proof.Machine.execAdjspd src s
  | .jsr dst => Sys2Proof.Machine.execJsr dst s
  | .caseb src => Sys2Proof.Machine.execCaseb src s
  | .casew src => Sys2Proof.Machine.execCasew src s
  | .cased src => Sys2Proof.Machine.execCased src s
  | .addb src dst => Sys2Proof.Machine.execAddb src dst s
  | .addw src dst => Sys2Proof.Machine.execAddw src dst s
  | .addd src dst => Sys2Proof.Machine.execAddd src dst s
  | .cmpb src1 src2 => Sys2Proof.Machine.execCmpb src1 src2 s
  | .cmpw src1 src2 => Sys2Proof.Machine.execCmpw src1 src2 s
  | .cmpd src1 src2 => Sys2Proof.Machine.execCmpd src1 src2 s
  | .bicb src dst => Sys2Proof.Machine.execBicb src dst s
  | .bicw src dst => Sys2Proof.Machine.execBicw src dst s
  | .bicd src dst => Sys2Proof.Machine.execBicd src dst s
  | .addcb src dst => Sys2Proof.Machine.execAddcb src dst s
  | .addcw src dst => Sys2Proof.Machine.execAddcw src dst s
  | .addcd src dst => Sys2Proof.Machine.execAddcd src dst s
  | .movb src dst => Sys2Proof.Machine.execMovb src dst s
  | .movw src dst => Sys2Proof.Machine.execMovw src dst s
  | .movd src dst => Sys2Proof.Machine.execMovd src dst s
  | .orb src dst => Sys2Proof.Machine.execOrb src dst s
  | .orw src dst => Sys2Proof.Machine.execOrw src dst s
  | .ord src dst => Sys2Proof.Machine.execOrd src dst s
  | .subb src dst => Sys2Proof.Machine.execSubb src dst s
  | .subw src dst => Sys2Proof.Machine.execSubw src dst s
  | .subd src dst => Sys2Proof.Machine.execSubd src dst s
  | .addr src dst => Sys2Proof.Machine.execAddr src dst s
  | .andb src dst => Sys2Proof.Machine.execAndb src dst s
  | .andw src dst => Sys2Proof.Machine.execAndw src dst s
  | .andd src dst => Sys2Proof.Machine.execAndd src dst s
  | .subcb src dst => Sys2Proof.Machine.execSubcb src dst s
  | .subcw src dst => Sys2Proof.Machine.execSubcw src dst s
  | .subcd src dst => Sys2Proof.Machine.execSubcd src dst s
  | .tbitb off base => Sys2Proof.Machine.execTbitb off base s
  | .tbitw off base => Sys2Proof.Machine.execTbitw off base s
  | .tbitd off base => Sys2Proof.Machine.execTbitd off base s
  | .xorb src dst => Sys2Proof.Machine.execXorb src dst s
  | .xorw src dst => Sys2Proof.Machine.execXorw src dst s
  | .xord src dst => Sys2Proof.Machine.execXord src dst s
  | .movsi len back stop => Sys2Proof.Machine.execMovsi len back stop s
  | .movsti step stop => Sys2Proof.Machine.execMovsti step stop s
  | .cmpsi len back stop => Sys2Proof.Machine.execCmpsi len back stop s
  | .cmpsti step stop => Sys2Proof.Machine.execCmpsti step stop s
  | .setcfg opts => Sys2Proof.Machine.execSetcfg opts s
  | .skpsi len back stop => Sys2Proof.Machine.execSkpsi len back stop s
  | .skpsti step stop => Sys2Proof.Machine.execSkpsti step stop s
  | .roti len cnt dst => Sys2Proof.Machine.execRoti len cnt dst s
  | .ashi len cnt dst => Sys2Proof.Machine.execAshi len cnt dst s
  | .cbiti len off base => Sys2Proof.Machine.execCbiti len off base s
  | .cbitii len off base => Sys2Proof.Machine.execCbitii len off base s
  | .lshi len cnt dst => Sys2Proof.Machine.execLshi len cnt dst s
  | .sbiti len off base => Sys2Proof.Machine.execSbiti len off base s
  | .sbitii len off base => Sys2Proof.Machine.execSbitii len off base s
  | .negi len src dst => Sys2Proof.Machine.execNegi len src dst s
  | .noti len src dst => Sys2Proof.Machine.execNoti len src dst s
  | .subpi len src dst => Sys2Proof.Machine.execSubpi len src dst s
  | .absi len src dst => Sys2Proof.Machine.execAbsi len src dst s
  | .comi len src dst => Sys2Proof.Machine.execComi len src dst s
  | .ibiti len off base => Sys2Proof.Machine.execIbiti len off base s
  | .addpi len src dst => Sys2Proof.Machine.execAddpi len src dst s
  | .movmi len src dst disp => Sys2Proof.Machine.execMovmi len src dst disp s
  | .cmpmi len src1 src2 disp => Sys2Proof.Machine.execCmpmi len src1 src2 disp s
  | .inssi len src base off size => Sys2Proof.Machine.execInssi len src base off size s
  | .extsi len base dst off size => Sys2Proof.Machine.execExtsi len base dst off size s
  | .muli len src dst => Sys2Proof.Machine.execMuli len src dst s
  | .meii len src dst => Sys2Proof.Machine.execMeii len src dst s
  | .deii len src dst => Sys2Proof.Machine.execDeii len src dst s
  | .quoi len src dst => Sys2Proof.Machine.execQuoi len src dst s
  | .remi len src dst => Sys2Proof.Machine.execRemi len src dst s
  | .modi len src dst => Sys2Proof.Machine.execModi len src dst s
  | .divi len src dst => Sys2Proof.Machine.execDivi len src dst s
  | .movxbw src dst => Sys2Proof.Machine.execMovxbw src dst s
  | .movzbw src dst => Sys2Proof.Machine.execMovzbw src dst s
  | .movzbd src dst => Sys2Proof.Machine.execMovzbd src dst s
  | .movzwd src dst => Sys2Proof.Machine.execMovzwd src dst s
  | .movxbd src dst => Sys2Proof.Machine.execMovxbd src dst s
  | .movxwd src dst => Sys2Proof.Machine.execMovxwd src dst s
  | .exti len off base dst disp => Sys2Proof.Machine.execExti len off base dst disp s
  | .cvtp field base dst => Sys2Proof.Machine.execCvtp field base dst s
  | .insi len off src base disp => Sys2Proof.Machine.execInsi len off src base disp s
  | .checki len dst bounds src => Sys2Proof.Machine.execChecki len dst bounds src s
  | .indexi len accum size idx => Sys2Proof.Machine.execIndexi len accum size idx s
  | .ffsi field base off => Sys2Proof.Machine.execFfsi field base off s
  | .movif fl len src dst => Sys2Proof.Machine.execMovif fl len src dst s
  | .lfsr fl len src spare => Sys2Proof.Machine.execLfsr fl len src spare s
  | .movlf fl len src dst => Sys2Proof.Machine.execMovlf fl len src dst s
  | .movfl fl len src dst => Sys2Proof.Machine.execMovfl fl len src dst s
  | .roundfi fl len src dst => Sys2Proof.Machine.execRoundfi fl len src dst s
  | .truncfi fl len src dst => Sys2Proof.Machine.execTruncfi fl len src dst s
  | .sfsr fl len spare dst => Sys2Proof.Machine.execSfsr fl len spare dst s
  | .floorfi fl len src dst => Sys2Proof.Machine.execFloorfi fl len src dst s
  | .addf fl src dst => Sys2Proof.Machine.execAddf fl src dst s
  | .movf fl src dst => Sys2Proof.Machine.execMovf fl src dst s
  | .cmpf fl src1 src2 => Sys2Proof.Machine.execCmpf fl src1 src2 s
  | .subf fl src dst => Sys2Proof.Machine.execSubf fl src dst s
  | .negf fl src dst => Sys2Proof.Machine.execNegf fl src dst s
  | .divf fl src dst => Sys2Proof.Machine.execDivf fl src dst s
  | .mulf fl src dst => Sys2Proof.Machine.execMulf fl src dst s
  | .absf fl src dst => Sys2Proof.Machine.execAbsf fl src dst s
  | .polyf fl src1 src2 => Sys2Proof.Machine.execPolyf fl src1 src2 s
  | .dotf fl src1 src2 => Sys2Proof.Machine.execDotf fl src1 src2 s
  | .scalbf fl src dst => Sys2Proof.Machine.execScalbf fl src dst s
  | .logbf fl src dst => Sys2Proof.Machine.execLogbf fl src dst s
  | .rdval word => Sys2Proof.Machine.execRdval word s
  | .wrval word => Sys2Proof.Machine.execWrval word s
  | .lmr word => Sys2Proof.Machine.execLmr word s
  | .smr word => Sys2Proof.Machine.execSmr word s
  | .movsui word => Sys2Proof.Machine.execMovsui word s
  | .movusi word => Sys2Proof.Machine.execMovusi word s
  | .catst0 word => Sys2Proof.Machine.execCatst0 word s
  | .catst1 word => Sys2Proof.Machine.execCatst1 word s
  | .lcr word => Sys2Proof.Machine.execLcr word s
  | .scr word => Sys2Proof.Machine.execScr word s
  | .ccv0ci word => Sys2Proof.Machine.execCcv0ci word s
  | .ccv1ci word => Sys2Proof.Machine.execCcv1ci word s
  | .ccv2ci word => Sys2Proof.Machine.execCcv2ci word s
  | .ccv3ci word => Sys2Proof.Machine.execCcv3ci word s
  | .ccv4dq word => Sys2Proof.Machine.execCcv4dq word s
  | .ccv5qd word => Sys2Proof.Machine.execCcv5qd word s
  | .lcsr word => Sys2Proof.Machine.execLcsr word s
  | .scsr word => Sys2Proof.Machine.execScsr word s
  | .ccal0c word => Sys2Proof.Machine.execCcal0c word s
  | .ccal1c word => Sys2Proof.Machine.execCcal1c word s
  | .ccal2c word => Sys2Proof.Machine.execCcal2c word s
  | .ccal3c word => Sys2Proof.Machine.execCcal3c word s
  | .cmov0c word => Sys2Proof.Machine.execCmov0c word s
  | .cmov1c word => Sys2Proof.Machine.execCmov1c word s
  | .cmov2c word => Sys2Proof.Machine.execCmov2c word s
  | .cmov3c word => Sys2Proof.Machine.execCmov3c word s
  | .ccmp0c word => Sys2Proof.Machine.execCcmp0c word s
  | .ccmp1c word => Sys2Proof.Machine.execCcmp1c word s

end Sys2Proof.Machine
end

