-- ==== Sys2Proof/Machine/Fetch.lean ====
section
/-! DEFINITION. Fetching and decoding the instruction at PC (R25, R51, R66, R82), placing an instruction there, and the
tracing of one instruction (R443). Step.lean only calls what stands here. -/

namespace Sys2Proof.Machine

/-- The `n` bytes of memory from address `a` on. -/
def fetchBytes (m : List Host.Cell) : Nat → Nat → List Byte
  | 0, _ => []
  | n + 1, a => Memory.read m a :: fetchBytes m n (a + 1)

/-- The bytes the decoder is given: the longest instruction's, but none at or above 2^24 (R25). -/
def fetchWindow (m : List Host.Cell) (a : Nat) : List Byte := fetchBytes m (min maxInstrBytes (2 ^ 24 - a)) a

/-- Some byte of `n` from `a` on has been stored to since the instruction queue was last flushed (R66, D18). -/
def isStale (unflushed : List Nat) (a n : Nat) : Bool := unflushed.any (fun k => decide (a ≤ k) && decide (k < a + n))

/-- What the fetch answers: an instruction, or the undefined instruction trap that FMT5_UNASSIGNED may ask for (D29). -/
inductive Fetched where
  | instr (i : Instr)
  | undefined
deriving DecidableEq, Repr

/-- What bytes that are no instruction do (R87, R91, R99, D28, D29). -/
def undecoded (e : DecodeError) : Res Fetched :=
  match e, Config.fmt5Unassigned with
  | .fmt5Unassigned, .trapUnd => .ok .undefined
  | e, _ => .error (.refuse (.undecodable e))

/-- Fetch and decode the instruction at PC. -/
def fetch (s : State) : Res Fetched := do
  let a ← physical s.pc
  match decode (fetchWindow s.mem a) with
  | .ok (i, _) => do
    require (!isStale s.unflushed a i.size) .staleFetch
    return .instr i
  | .error e => undecoded e

/-- The start of an instruction: T is latched into P (R443, log entry 15). -/
def beginTrace (s : State) : State := s.setFlag .p (s.flag .t)

/-- The end of an instruction: with P set, P is cleared and the trace trap is taken, its return address the next
instruction (R431, R433, log entry 15). A waiting CPU has not ended its instruction. -/
def endTrace (o : Host.Outcome State Fault Refusal) : Host.Outcome State Fault Refusal :=
  match o with
  | .next s =>
    if s.flag .p && !s.waiting then finish (takeException .trc s.pc (s.setFlag .p false)) else .next s
  | .fault r => .fault r
  | .refused r => .refused r

/-- Store bytes without the CPU: a program loaded from outside (log entry 42). -/
def placeBytes (m : List Host.Cell) : Nat → List Byte → List Host.Cell
  | _, [] => m
  | a, b :: bs => placeBytes (Memory.write m a b) (a + 1) bs

/-- The state with an instruction's bytes where the next step fetches: at PC, with no stale byte there, and not waiting. -/
def placeInstr (s : State) (bytes : List Byte) : State :=
  { s with
    mem := placeBytes s.mem s.pc.toNat (bytes.take (2 ^ 24 - s.pc.toNat))
    unflushed := s.unflushed.filter (fun k => !(decide (s.pc.toNat ≤ k) && decide (k < s.pc.toNat + bytes.length)))
    waiting := false }

end Sys2Proof.Machine
end

