-- ==== Sys2Proof/Machine/Step.lean ====
section
/-! DEFINITION. One step of the machine (D1): fetch, decode, execute, trace. -/

namespace Sys2Proof.Machine

/-- One step. A CPU that waits stays as it is: no interrupt is delivered in the model (log entries 13, 14). -/
def step (s : State) : Host.Outcome State Fault Refusal :=
  if s.waiting then .next s
  else
    match fetch s with
    | .ok (.instr i) => endTrace (exec i (beginTrace s))
    | .ok .undefined => finish (takeException .und s.pc s)
    | .error e => finish (.error e)

/-- The state with the instruction whose first `nbits` bits are `w` stored where `step` fetches its next one. -/
def State.withFetchWord (s : State) (nbits w : Nat) : State := placeInstr s (tableBytes nbits w)

end Sys2Proof.Machine
end

