-- ==== Sys2Proof/Safety.lean ====
section
/-! DEFINITION. What a legal state and a safe run are, in the terms the statements use. -/

namespace Sys2Proof.Safety

open Sys2Proof.Machine

/-- A strictly rising list of addresses of the 16-Mbyte space. -/
def addressesWf (l : List Nat) : Bool := decide (l.Pairwise (· < ·)) && l.all (fun a => decide (a < 2 ^ 24))

/-- The invariant of the machine between two instructions: memory in canonical form (R58), the reserved bits of PSR 0
(R28), the bytes not yet flushed listed once each and inside memory (R66), and NBPU deasserted, for it is asserted only
inside EXTBLT (R152, R461). -/
def Inv (s : State) : Prop :=
  Memory.wf s.mem = true ∧ s.psr &&& ~~~psrDefined = 0#16 ∧ addressesWf s.unflushed = true ∧ s.nbpu = false

/-- The step from this state answers a next state: neither a fault nor a refusal. -/
def Proceeds (s : State) : Prop := ∃ t, step s = .next t

/-- `n` steps from this state all proceed. -/
def Safe : Nat → State → Prop
  | 0, _ => True
  | n + 1, s => ∃ t, step s = .next t ∧ Safe n t

end Sys2Proof.Safety
end

