-- ==== Sys2Proof/Certificates/Slice0/Obligations.lean ====
section
/-! DEFINITION. The statements for the provers. First the vocabulary they share, then one definition per statement. A
rule named in a docstring is a numbered rule of spec/; "log n" is a row of the assumption log, and a statement that rests
on one says so. -/

namespace Sys2Proof.Claims

open Sys2Proof.Machine

/-- The `n` bytes from `a` on lie in the 16-Mbyte space (R58). -/
abbrev Fits (a : Dword) (n : Nat) : Prop := a.toNat + n ≤ 2 ^ 24

/-- The address `k` is one of the `n` bytes from `a` on. -/
abbrev InRange (k : Nat) (a : Dword) (n : Nat) : Prop := a.toNat ≤ k ∧ k < a.toNat + n

/-- The `n` bytes from `a` on and the `m` bytes from `b` on have no byte in common. -/
abbrev Apart (a : Dword) (n : Nat) (b : Dword) (m : Nat) : Prop := a.toNat + n ≤ b.toNat ∨ b.toNat + m ≤ a.toNat

/-- Every byte outside the `n` bytes from `a` on reads as before. -/
def KeptOutside (s t : State) (a : Dword) (n : Nat) : Prop :=
  ∀ k, ¬InRange k a n → Memory.read t.mem k = Memory.read s.mem k

/-- Every byte reads as before. -/
def KeptMemory (s t : State) : Prop := ∀ k, Memory.read t.mem k = Memory.read s.mem k

/-- Every bit of PSR but the named flags is as before. -/
def KeptPsr (s t : State) (except : List Flag) : Prop :=
  ∀ k, (∀ fl ∈ except, fl.bit ≠ k) → t.psr.getLsbD k = s.psr.getLsbD k

/-- Every special register, accumulator and exception register is as before: FP, SB, INTBASE, MOD, CFG, the
floating-point registers and FSR, BBSTOD's mask, NBPU, the BPU, and the waiting state. -/
def KeptSpecial (s t : State) : Prop :=
  t.fp = s.fp ∧ t.sb = s.sb ∧ t.intbase = s.intbase ∧ t.mod = s.mod ∧ t.cfg = s.cfg ∧ t.fregs = s.fregs ∧
    t.fsr = s.fsr ∧ t.bbMask = s.bbMask ∧ t.nbpu = s.nbpu ∧ t.bpu = s.bpu ∧ t.waiting = s.waiting

/-- Every general register but the named ones is as before. -/
def KeptRegs (s t : State) (except : List Reg) : Prop := ∀ r, r ∉ except → t.reg r = s.reg r

/-- Both stack pointers are as before. -/
def KeptStacks (s t : State) : Prop := t.sp0 = s.sp0 ∧ t.sp1 = s.sp1

/-- The operand is Top of stack itself (not a scaled index over it). -/
def IsTos (g : Gen) : Prop := g = .plain .tos

/-- The operand is a general register. -/
def IsReg (g : Gen) : Prop := ∃ r, g = .plain (.reg r)

/-- The address a destination operand of `n` bytes is stored at, by a write that pushes on Top of stack (R96). -/
def storeAddress (g : Gen) (n : Nat) (s : State) : Res Dword :=
  match g with
  | .plain .tos => .ok (s.sp - BitVec.ofNat 32 n)
  | g => effAddr g s

/-- What the state is after an open value has been drawn. -/
def drawn (s : State) : State := { s with freeIdx := s.freeIdx + 1 }

/-- The open value drawn next, at a width. -/
def openValue (w : Nat) (s : State) : BitVec w := (Config.freeValue s.freeIdx).setWidth w

/-- The integer that the bytes from `a` on hold, the lowest byte the least significant (R50). -/
def elementAt (len : IntLen) (s : State) (a : Dword) : IntVal len :=
  (List.range len.bytes).foldr (fun k v => v <<< 8 ||| (Memory.read s.mem (a.toNat + k)).setWidth _) 0#_

/-- The `k`-th element of the string at R1, elements `d` apart, as a string instruction sees it: with option T a byte is
looked up in the table at R3, and a longer element becomes the `k`-th open value (log 34). -/
def sourceElement (len : IntLen) (tr : Bool) (d : Dword) (s : State) (k : Nat) : IntVal len :=
  match tr, len with
  | false, len => elementAt len s (s.reg .r1 + BitVec.ofNat 32 k * d)
  | true, .b => elementAt .b s (s.reg .r3 + (elementAt .b s (s.reg .r1 + BitVec.ofNat 32 k * d)).setWidth 32)
  | true, .w => (Config.freeValue (s.freeIdx + k)).setWidth _
  | true, .d => (Config.freeValue (s.freeIdx + k)).setWidth _

/-- Option U or W ends the string at this element: it is, or is not, the match value in R4 (log 34). -/
def StopsAt (len : IntLen) (stop : StopRule) (s : State) (v : IntVal len) : Prop :=
  match stop with
  | .none => False
  | .whileMatch => v ≠ (s.reg .r4).setWidth _
  | .untilMatch => v = (s.reg .r4).setWidth _

/-- How far word `k` of line `j` of a rectangle lies from its first word, when the pointer moves by `step` between words,
`moves` times in a line, and by `warp` after the line (R114, R148). -/
def wordOffset (moves : Nat) (step warp : Dword) (j k : Nat) : Dword :=
  BitVec.ofNat 32 j * (BitVec.ofNat 32 moves * step + warp) + BitVec.ofNat 32 k * step

/-- Do something for each word of each line of a rectangle, in order. -/
def forRectangle (height width : Nat) (word : Nat → Nat → State → Res State) (s : State) : Res State :=
  (List.range height).foldlM (fun u j => (List.range width).foldlM (fun u k => word j k u) u) s

/-- What a BB-series function makes of a destination and a zero-extended source word under a mask and a shift (R115). -/
def bbValue (fn : BbFn) (sh : Nat) (m src d : Dword) : Dword :=
  match fn with
  | .or | .fastOr => d ||| (src &&& m) <<< sh
  | .xor => d ^^^ (src &&& m) <<< sh
  | .and => d &&& (0xFFFF0000#32 ||| src ||| m).rotateLeft sh
  | .stod => d &&& ~~~(m.rotateLeft sh) ||| (src &&& m) <<< sh

/-- The mask that word `k` of a line of `n` words meets: R4 for the first, R5 for the last of several, and for the others one
that changes nothing (R114, R115). -/
def bbMaskAt (fn : BbFn) (n k : Nat) (s : State) : Dword :=
  if k = 0 then s.reg .r4 else if k + 1 = n then s.reg .r5 else if fn = .and then 0#32 else 0xFFFF#32

/-- How many destination bytes a BB-series word takes: four, but two for BBFOR with shift 0 (R121). -/
def bbBytes (fn : BbFn) (sh : Nat) : Nat := if fn = .fastOr ∧ sh = 0 then 2 else 4

/-- One word of a BB-series instruction from `src` to `dst` (R115): the source read and, with option -S, inverted; the
destination read, combined and written. -/
def bbStepAt (fn : BbFn) (inv : Bool) (sh : Nat) (m src dst : Dword) (u : State) : Res State := do
  let w ← u.load16 src
  let d ← u.load (bbBytes fn sh) dst
  u.store (bbBytes fn sh) dst ((bbValue fn sh m ((if inv then ~~~w else w).setWidth 32) (d.setWidth 32)).setWidth 64)

/-- One word of EXTBLT from `src` to `dst` (R148, R150): the BPU is given the source word, twice where `twice` holds, and the
destination word, and its word is written. -/
def bpuStepAt (twice : Bool) (src dst : Dword) (u : State) : Res State := do
  let w ← u.load16 src
  let d ← u.load16 dst
  let answer := Config.bpuResult u.bpu (if twice then [w, w] else [w]) d
  { u with bpu := answer.2 }.store16 dst answer.1

end Sys2Proof.Claims

open Sys2Proof Sys2Proof.Machine Sys2Proof.Claims

/-! ### Encoding -/

/-- Decoding the encoding of a well-formed instruction, whatever bytes follow, gives it back and leaves those bytes. -/
def Obligations.DecodeEncode : Prop :=
  ∀ (i : Instr) (rest : List Byte), i.wf = true → decode (encode i ++ rest) = .ok (i, rest)

/-- Bytes that decode are the encoding of the instruction they decode to, followed by the bytes left: no bit of an
accepted instruction is ignored. -/
def Obligations.DecodeSound : Prop :=
  ∀ (bytes rest : List Byte) (i : Instr), decode bytes = .ok (i, rest) → bytes = encode i ++ rest

/-- Words written out from the spec's encodings decode to their instructions: the BB rows of R83, and companion
instructions of R429. -/
def Obligations.DecodeWords : Prop :=
  decode [0x0E#8, 0x19#8, 0x00#8] = .ok (.bbor false false, []) ∧
  decode [0x0E#8, 0x31#8, 0x00#8] = .ok (.bbfor, []) ∧
  decode [0x0E#8, 0x39#8, 0x00#8] = .ok (.bbxor false false, []) ∧
  decode [0x0E#8, 0x11#8, 0x00#8] = .ok (.bbstod false false, []) ∧
  decode [0x04#8, 0x15#8, 0x00#8] = .ok (.cmpb (.plain (.reg .r2)) (.plain (.imm 0#64)), []) ∧
  decode [0x9C#8, 0xA0#8, 0x02#8] = .ok (.cmpqb 1#4 (.plain (.imm 2#64)), []) ∧
  decode [0x5F#8, 0x10#8] = .ok (.movqd 0#4 (.plain (.reg .r2)), []) ∧
  decode [0xCE#8, 0x19#8, 0x21#8] = .ok (.movzwd (.plain (.reg .r4)) (.plain (.reg .r4)), []) ∧
  decode [0x7C#8, 0xA1#8, 0x18#8] = .ok (.bicpsrb (.plain (.imm 0x18#64)), []) ∧
  decode [0x8A#8, 0x03#8] = .ok (.bcond .fs (.one 3#7), [])

/-- No instruction is longer than the window the fetch gives the decoder, and every encoding has the length that
`advance` moves PC by. -/
def Obligations.EncodingLength : Prop :=
  ∀ i : Instr, (encode i).length = i.size ∧ 1 ≤ i.size ∧ i.size ≤ maxInstrBytes

/-! ### The step -/

/-- A step runs the decoded instruction: when the CPU does not wait and the bytes at PC decode to an instruction, well-formed
or not, none of whose bytes is stale, the step latches T into P, executes the instruction, and ends it: with P set it
clears P and takes the trace trap, else the instruction's next state is the step's (tracing: R443, log 15). -/
def Obligations.StepRunsDecoded : Prop :=
  ∀ (s : State) (i : Instr) (rest : List Byte), s.waiting = false → s.pc.toNat < 2 ^ 24 →
    decode (fetchWindow s.mem s.pc.toNat) = .ok (i, rest) →
    (∀ k ∈ s.unflushed, ¬InRange k s.pc i.size) →
    (∀ t, exec i (s.setFlag .p (s.flag .t)) = .next t → (t.flag .p = false ∨ t.waiting = true) → step s = .next t) ∧
    (∀ t, exec i (s.setFlag .p (s.flag .t)) = .next t → t.flag .p = true → t.waiting = false →
      step s = finish (takeException .trc t.pc (t.setFlag .p false))) ∧
    (∀ r, exec i (s.setFlag .p (s.flag .t)) = .fault r → step s = .fault r) ∧
    (∀ r, exec i (s.setFlag .p (s.flag .t)) = .refused r → step s = .refused r)

/-- Placing an instruction's word where the step fetches makes the next step run exactly that instruction, whatever
memory, queue and waiting state held before. -/
def Obligations.PlacedWordRuns : Prop :=
  ∀ (s : State) (nbits w : Nat) (i : Instr), s.pc.toNat + maxInstrBytes ≤ 2 ^ 24 → decodeTableWord nbits w = some i →
    step (s.withFetchWord nbits w) = endTrace (exec i (beginTrace (s.withFetchWord nbits w)))

/-- A byte stored to and later fetched, with no flush of the instruction queue between, makes the step refuse; a flush
forgets every such byte (R66, D18). -/
def Obligations.StaleFetchRefused : Prop :=
  (∀ (s t u : State) (a : Dword) (b : Byte) (i : Instr) (rest : List Byte), s.storeByte a b = .ok t →
    u.unflushed = t.unflushed → u.waiting = false → u.pc.toNat < 2 ^ 24 →
    decode (fetchWindow u.mem u.pc.toNat) = .ok (i, rest) → InRange a.toNat u.pc i.size →
    step u = .refused .staleFetch) ∧
  (∀ s : State, s.flushQueue.unflushed = [])

/-- PSR.T traces: with T set, NOP is followed by the trace trap, whose return address is the next
instruction and whose saved PSR has P clear (R431, R433 and R443 as log 3 and log 15 adopt them). -/
def Obligations.TraceTrapAfterNop : Prop :=
  ∀ s t : State, s.waiting = false → s.pc.toNat + 1 ≤ 2 ^ 24 → s.flag .t = true →
    Memory.read s.mem s.pc.toNat = 0xA2#8 → (∀ k ∈ s.unflushed, k ≠ s.pc.toNat) →
    takeException .trc (s.pc + 1#32) ((s.setPc (s.pc + 1#32)).setFlag .p false) = .ok t →
    step s = .next t

/-! ### Invariants and whole-machine rules -/

/-- Every step keeps the invariant, from every state that has it: memory's canonical form, PSR's reserved bits 0, the
list of unflushed bytes strictly rising inside memory, and NBPU deasserted between instructions. -/
def Obligations.StepKeepsInv : Prop :=
  ∀ s t : State, Safety.Inv s → step s = .next t → Safety.Inv t

/-- The state after reset has the invariant. -/
def Obligations.ResetInv : Prop := Safety.Inv State.reset

/-- What reset leaves: PC, PSR and CFG are cleared (the family's values, which R460 marks as general knowledge; log 5),
supervisor mode, the interrupt stack, interrupts off, the undivided clock, an empty instruction queue, NBPU deasserted, and
a CPU that does not wait (the model's choice, log 6). -/
def Obligations.ResetValues : Prop :=
  State.reset.pc = 0#32 ∧ State.reset.psr = 0#16 ∧ State.reset.cfg = 0#4 ∧ State.reset.flag .u = false ∧
    State.reset.flag .s = false ∧ State.reset.flag .i = false ∧ State.reset.unflushed = [] ∧ State.reset.nbpu = false ∧
    State.reset.waiting = false

/-- No instruction executed in user mode changes the mode, the stack selection, the interrupt enable, INTBASE or CFG,
unless it takes an exception, and then the next state is the one the exception's entry makes (R438 as log 2 adopts it). -/
def Obligations.UserModeConfined : Prop :=
  ∀ (i : Instr) (s t : State), s.flag .u = true → exec i s = .next t →
    (t.flag .u = true ∧ t.flag .s = s.flag .s ∧ t.flag .i = s.flag .i ∧ t.intbase = s.intbase ∧ t.cfg = s.cfg) ∨
      ∃ e : Exception, takeException e s.pc s = .ok t

/-- The thirteen graphics instructions never enter an exception and change no flag but F (SBITS, TBITS) and L (TBITS):
"Flags Affected" and "Traps: None" of R118, R143, R151, R166, R173, R179, R186, R187, R432. -/
def Obligations.GraphicsFlags : Prop :=
  ∀ (i : Instr) (s t : State), exec i s = .next t →
    ((∃ da inv, i = .bbor da inv ∨ i = .bbxor da inv ∨ i = .bband da inv ∨ i = .bbstod da inv) ∨
      i ∈ [Instr.bbfor, .bitwt, .extblt, .movmpb, .movmpw, .movmpd, .sbitps] → t.psr = s.psr) ∧
    (i = .sbits → KeptPsr s t [.f]) ∧
    ((∃ ones, i = .tbits ones) → KeptPsr s t [.f, .l]) ∧
    ((∃ da inv, i = .bbor da inv ∨ i = .bbxor da inv ∨ i = .bband da inv ∨ i = .bbstod da inv) ∨
      (∃ ones, i = .tbits ones) ∨ i ∈ [Instr.bbfor, .bitwt, .extblt, .movmpb, .movmpw, .movmpd, .sbitps, .sbits] →
      t.pc = s.pc + 3#32 ∧ KeptStacks s t ∧ t.sb = s.sb ∧ t.intbase = s.intbase ∧ t.mod = s.mod ∧ t.cfg = s.cfg ∧
        t.fregs = s.fregs ∧ t.fsr = s.fsr)

/-! ### Memory, registers and operands -/

/-- Memory is little-endian (R50): after storing the `n` low bytes of `v` at `a`, the byte at `a + k` is bits
8k+7..8k of `v`, and reading `n` bytes at `a` gives their sum. The store completes when the bytes lie below 2^24. -/
def Obligations.LittleEndian : Prop :=
  ∀ (s : State) (n : Nat) (a : Dword) (v : Quad), n ≤ 8 → Fits a n →
    ∃ t, s.store n a v = .ok t ∧
      (∀ k < n, Memory.read t.mem (a.toNat + k) = v.extractLsb' (8 * k) 8) ∧
      t.load n a = .ok (BitVec.ofNat 64 (v.toNat % 2 ^ (8 * n)))

/-- A store changes the bytes it stores, the list of unflushed bytes, and nothing else; under the default of ADDR_HIGH an
access with an address at or above 2^24 is refused (R59). -/
def Obligations.StoreFrame : Prop :=
  (∀ (s t : State) (n : Nat) (a : Dword) (v : Quad), s.store n a v = .ok t →
    KeptOutside s t a n ∧ t = { s with mem := t.mem, unflushed := t.unflushed } ∧
      ∀ k, k ∈ t.unflushed ↔ k ∈ s.unflushed ∨ InRange k a n) ∧
  (∀ (s : State) (n : Nat) (a : Dword) (v : Quad), 0 < n → ¬Fits a n →
    (∃ b, s.load n a = .error (.refuse (.addressHigh b))) ∧ ∃ b, s.store n a v = .error (.refuse (.addressHigh b)))

/-- Writing `n` = 1, 2 or 4 bytes of a general register replaces its low bytes and keeps the rest, and keeps every other
register (R96, R401); reading takes the low bytes. A Long register is written and read whole (R34). The Float registers F0
and F1, F2 and F3, F4 and F5, F6 and F7 are the low and high halves of L0, L2, L4, L6 (the model's choice, log 19): writing
one keeps the other half and every other Long register, and reading gives its 32 bits. -/
def Obligations.RegisterOperand : Prop :=
  (∀ (s : State) (len : IntLen) (r : Reg) (v : IntVal len),
    ∃ t, (Loc.reg r).writeInt len v s = .ok t ∧
      (∀ k < 32, (t.reg r).getLsbD k = if k < lenBits len then v.getLsbD k else (s.reg r).getLsbD k) ∧
      KeptRegs s t [r] ∧ (Loc.reg r).readInt len t = .ok v ∧ t = { s with regs := t.regs }) ∧
  (∀ (s : State) (r : Reg) (v : Quad),
    ∃ t, (Loc.reg r).writeFloat .long v s = .ok t ∧ t.longReg r = v ∧ (∀ q, q ≠ r → t.longReg q = s.longReg q) ∧
      (Loc.reg r).readFloat .long t = .ok v ∧ t = { s with fregs := t.fregs }) ∧
  (∀ (s : State) (r home : Reg) (low : Nat) (v : Quad),
    (r, home, low) ∈ [(Reg.r0, Reg.r0, 0), (.r1, .r0, 32), (.r2, .r2, 0), (.r3, .r2, 32), (.r4, .r4, 0), (.r5, .r4, 32),
      (.r6, .r6, 0), (.r7, .r6, 32)] →
    ∃ t, (Loc.reg r).writeFloat .float v s = .ok t ∧
      (∀ k < 64, (t.longReg home).getLsbD k =
        if low ≤ k ∧ k < low + 32 then v.getLsbD (k - low) else (s.longReg home).getLsbD k) ∧
      (∀ q, q ≠ home → t.longReg q = s.longReg q) ∧
      (Loc.reg r).readFloat .float t = .ok ((v.setWidth 32).setWidth 64) ∧ t = { s with fregs := t.fregs })

/-- The effective address of every mode (R96), and what Top of stack does to SP. -/
def Obligations.EffectiveAddresses : Prop :=
  (∀ (s : State) (r : Reg) (d : Disp), place (.plain (.regRel r d)) s = .ok (.mem (s.reg r + d.val))) ∧
  (∀ (s : State) (d1 d2 : Disp) (p : Dword), s.load32 (s.fp + d1.val) = .ok p →
    place (.plain (.memRel .fp d1 d2)) s = .ok (.mem (p + d2.val))) ∧
  (∀ (s : State) (d1 d2 : Disp) (p : Dword), s.load32 (s.sp + d1.val) = .ok p →
    place (.plain (.memRel .sp d1 d2)) s = .ok (.mem (p + d2.val))) ∧
  (∀ (s : State) (d1 d2 : Disp) (p : Dword), s.load32 (s.sb + d1.val) = .ok p →
    place (.plain (.memRel .sb d1 d2)) s = .ok (.mem (p + d2.val))) ∧
  (∀ (s : State) (d : Disp), place (.plain (.absolute d)) s = .ok (.mem d.val)) ∧
  (∀ (s : State) (d1 d2 : Disp) (q p : Dword), s.load32 (s.mod.setWidth 32 + 4#32) = .ok q →
    s.load32 (q + 4#32 * d1.val) = .ok p → place (.plain (.external d1 d2)) s = .ok (.mem (p + d2.val))) ∧
  (∀ (s : State) (d : Disp), place (.plain (.space .fp d)) s = .ok (.mem (s.fp + d.val)) ∧
    place (.plain (.space .sp d)) s = .ok (.mem (s.sp + d.val)) ∧
    place (.plain (.space .sb d)) s = .ok (.mem (s.sb + d.val)) ∧
    place (.plain (.space .pc d)) s = .ok (.mem (s.pc + d.val))) ∧
  (∀ s : State, place (.plain .tos) s = .ok (.mem s.sp)) ∧
  (∀ (s : State) (n : Nat) (v : Quad), s.load n s.sp = .ok v →
    readGen (.plain .tos) n s = .ok (v, s.setSp (s.sp + BitVec.ofNat 32 n))) ∧
  (∀ (s : State) (n : Nat) (v : Quad), writeGen (.plain .tos) n v s =
    (s.setSp (s.sp - BitVec.ofNat 32 n)).store n (s.sp - BitVec.ofNat 32 n) v) ∧
  (∀ (s : State) (m : BaseMode) (x : Reg) (k : Scale) (a : Dword), placeBase m s = .ok (.mem a) →
    place (.scaled m x k) s = .ok (.mem (a + s.reg x *
      match k with | .b => 1#32 | .w => 2#32 | .d => 4#32 | .q => 8#32)))

/-! ### Integer instructions: the next state (completion) -/

/-- ADDi, ADDCi, SUBi, SUBCi and ADDQi complete whenever their operands can be read and written: the sum or difference
modulo 2^(8 len), C the carry or borrow, F the signed overflow (R407 to R409; the forms with carry are the family's, log 1). -/
def Obligations.AddSubResult : Prop :=
  (∀ (len : IntLen) (src dst : Gen) (s s1 t : State) (a b r : IntVal len) (l : Loc) (sub carry cin : Bool) (i : Instr),
    readInt len src s = .ok (a, s1) → place dst s1 = .ok l → l.readInt len s1 = .ok b →
    cin = (carry && s1.flag .c) →
    i = (match sub, carry with
      | false, false => len.pick (.addb src dst) (.addw src dst) (.addd src dst)
      | false, true => len.pick (.addcb src dst) (.addcw src dst) (.addcd src dst)
      | true, false => len.pick (.subb src dst) (.subw src dst) (.subd src dst)
      | true, true => len.pick (.subcb src dst) (.subcw src dst) (.subcd src dst)) →
    (r.toNat : Int) = (if sub then (b.toNat : Int) - a.toNat - cin.toNat else (b.toNat : Int) + a.toNat + cin.toNat)
      % (2 : Int) ^ lenBits len →
    l.writeInt len r ((s1.setFlag .c (if sub then decide (b.toNat < a.toNat + cin.toNat)
        else decide (2 ^ lenBits len ≤ b.toNat + a.toNat + cin.toNat))).setFlag .f
      (if sub then decide (b.toInt - a.toInt - cin.toNat ≠ r.toInt) else decide (b.toInt + a.toInt + cin.toNat ≠ r.toInt)))
      = .ok t →
    exec i s = .next (t.advance i)) ∧
  (∀ (len : IntLen) (q : Quick) (dst : Gen) (s t : State) (b : IntVal len) (l : Loc) (i : Instr),
    place dst s = .ok l → l.readInt len s = .ok b → i = len.pick (.addqb q dst) (.addqw q dst) (.addqd q dst) →
    l.writeInt len (b + q.signExtend (lenBits len))
      ((s.setFlag .c (decide (2 ^ lenBits len ≤ b.toNat + (q.signExtend (lenBits len)).toNat))).setFlag .f
        (decide (b.toInt + q.toInt ≠ (b + q.signExtend (lenBits len)).toInt))) = .ok t →
    exec i s = .next (t.advance i))

/-- ANDi, ORi, XORi, BICi complete and set no flag (R410 to R413). -/
def Obligations.LogicResult : Prop :=
  ∀ (len : IntLen) (src dst : Gen) (s s1 t : State) (a b : IntVal len) (l : Loc),
    readInt len src s = .ok (a, s1) → place dst s1 = .ok l → l.readInt len s1 = .ok b →
    (l.writeInt len (b &&& a) s1 = .ok t →
      exec (len.pick (.andb src dst) (.andw src dst) (.andd src dst)) s =
        .next (t.advance (len.pick (.andb src dst) (.andw src dst) (.andd src dst)))) ∧
    (l.writeInt len (b ||| a) s1 = .ok t →
      exec (len.pick (.orb src dst) (.orw src dst) (.ord src dst)) s =
        .next (t.advance (len.pick (.orb src dst) (.orw src dst) (.ord src dst)))) ∧
    (l.writeInt len (b ^^^ a) s1 = .ok t →
      exec (len.pick (.xorb src dst) (.xorw src dst) (.xord src dst)) s =
        .next (t.advance (len.pick (.xorb src dst) (.xorw src dst) (.xord src dst)))) ∧
    (l.writeInt len (b &&& ~~~a) s1 = .ok t →
      exec (len.pick (.bicb src dst) (.bicw src dst) (.bicd src dst)) s =
        .next (t.advance (len.pick (.bicb src dst) (.bicw src dst) (.bicd src dst))))

/-- CMPi and CMPQi complete, write no operand and set Z, N and L only (R402, R403): Z when the operands are equal, N when
operand 2 is less than operand 1 as signed integers, L as unsigned integers. -/
def Obligations.CompareResult : Prop :=
  (∀ (len : IntLen) (src1 src2 : Gen) (s s1 s2 : State) (a b : IntVal len),
    readInt len src1 s = .ok (a, s1) → readInt len src2 s1 = .ok (b, s2) →
    exec (len.pick (.cmpb src1 src2) (.cmpw src1 src2) (.cmpd src1 src2)) s =
      .next ((((s2.setFlag .z (decide (a = b))).setFlag .n (decide (b.toInt < a.toInt))).setFlag .l
        (decide (b.toNat < a.toNat))).advance (len.pick (.cmpb src1 src2) (.cmpw src1 src2) (.cmpd src1 src2)))) ∧
  (∀ (len : IntLen) (q : Quick) (src : Gen) (s s1 : State) (b : IntVal len), readInt len src s = .ok (b, s1) →
    exec (len.pick (.cmpqb q src) (.cmpqw q src) (.cmpqd q src)) s =
      .next ((((s1.setFlag .z (decide (q.signExtend (lenBits len) = b))).setFlag .n (decide (b.toInt < q.toInt))).setFlag
        .l (decide (b.toNat < (q.signExtend (lenBits len)).toNat))).advance
          (len.pick (.cmpqb q src) (.cmpqw q src) (.cmpqd q src))))

/-- MOVi, MOVQi, MOVZii, MOVXii and ADDR complete and set no flag (R404 to R406, R418, R427). -/
def Obligations.MoveResult : Prop :=
  (∀ (len : IntLen) (src dst : Gen) (s s1 t : State) (a : IntVal len), readInt len src s = .ok (a, s1) →
    writeInt len dst a s1 = .ok t →
    exec (len.pick (.movb src dst) (.movw src dst) (.movd src dst)) s =
      .next (t.advance (len.pick (.movb src dst) (.movw src dst) (.movd src dst)))) ∧
  (∀ (len : IntLen) (q : Quick) (dst : Gen) (s t : State), writeInt len dst (q.signExtend (lenBits len)) s = .ok t →
    exec (len.pick (.movqb q dst) (.movqw q dst) (.movqd q dst)) s =
      .next (t.advance (len.pick (.movqb q dst) (.movqw q dst) (.movqd q dst)))) ∧
  (∀ (src dst : Gen) (s s1 t : State) (a : Byte), readInt .b src s = .ok (a, s1) →
    (writeInt .w dst (a.zeroExtend 16) s1 = .ok t → exec (.movzbw src dst) s = .next (t.advance (.movzbw src dst))) ∧
    (writeInt .d dst (a.zeroExtend 32) s1 = .ok t → exec (.movzbd src dst) s = .next (t.advance (.movzbd src dst))) ∧
    (writeInt .w dst (a.signExtend 16) s1 = .ok t → exec (.movxbw src dst) s = .next (t.advance (.movxbw src dst))) ∧
    (writeInt .d dst (a.signExtend 32) s1 = .ok t → exec (.movxbd src dst) s = .next (t.advance (.movxbd src dst)))) ∧
  (∀ (src dst : Gen) (s s1 t : State) (a : Word16), readInt .w src s = .ok (a, s1) →
    (writeInt .d dst (a.zeroExtend 32) s1 = .ok t → exec (.movzwd src dst) s = .next (t.advance (.movzwd src dst))) ∧
    (writeInt .d dst (a.signExtend 32) s1 = .ok t → exec (.movxwd src dst) s = .next (t.advance (.movxwd src dst)))) ∧
  (∀ (src dst : Gen) (s t : State) (a : Dword), place src s = .ok (.mem a) → writeInt .d dst a s = .ok t →
    exec (.addr src dst) s = .next (t.advance (.addr src dst)))

/-- NEGi, ABSi, COMi and NOTi complete (the family's operations, log 1, 24 and 50): NEG sets C when a borrow leaves and F on
overflow; ABS sets F on overflow, its result then open; COM and NOT set no flag. -/
def Obligations.UnaryResult : Prop :=
  ∀ (len : IntLen) (src dst : Gen) (s s1 t : State) (a : IntVal len), readInt len src s = .ok (a, s1) →
    (writeInt len dst (-a) ((s1.setFlag .c (decide (a.toNat ≠ 0))).setFlag .f (decide (a.toInt = -(2 : Int) ^ (lenBits len - 1))))
      = .ok t → exec (.negi len src dst) s = .next (t.advance (.negi len src dst))) ∧
    (a.toInt ≠ -(2 : Int) ^ (lenBits len - 1) →
      writeInt len dst (BitVec.ofNat _ a.toInt.natAbs) (s1.setFlag .f false) = .ok t →
      exec (.absi len src dst) s = .next (t.advance (.absi len src dst))) ∧
    (a.toInt = -(2 : Int) ^ (lenBits len - 1) →
      writeInt len dst (openValue (lenBits len) s1) ((drawn s1).setFlag .f true) = .ok t →
      exec (.absi len src dst) s = .next (t.advance (.absi len src dst))) ∧
    (writeInt len dst (~~~a) s1 = .ok t → exec (.comi len src dst) s = .next (t.advance (.comi len src dst))) ∧
    (writeInt len dst (a ^^^ 1#_) s1 = .ok t → exec (.noti len src dst) s = .next (t.advance (.noti len src dst)))

/-- MULi, QUOi, REMi, DIVi and MODi complete and set no flag (R249, R262, R274, R279, R280, the family's operations, log 25
and 50): DIV rounds down and MOD is its remainder, QUO rounds toward zero and REM is its remainder; a quotient that does not
fit is open. -/
def Obligations.MultiplyDivideResult : Prop :=
  ∀ (len : IntLen) (src dst : Gen) (s s1 t : State) (a b r : IntVal len) (l : Loc),
    readInt len src s = .ok (a, s1) → place dst s1 = .ok l → l.readInt len s1 = .ok b →
    (r.toNat = a.toNat * b.toNat % 2 ^ lenBits len → l.writeInt len r s1 = .ok t →
      exec (.muli len src dst) s = .next (t.advance (.muli len src dst))) ∧
    (a ≠ 0 → ¬(b.toInt = -(2 : Int) ^ (lenBits len - 1) ∧ a.toInt = -1) → l.writeInt len r s1 = .ok t →
      (r.toInt = b.toInt.tdiv a.toInt → exec (.quoi len src dst) s = .next (t.advance (.quoi len src dst))) ∧
      (r.toInt = b.toInt.fdiv a.toInt → exec (.divi len src dst) s = .next (t.advance (.divi len src dst)))) ∧
    (a ≠ 0 → l.writeInt len r s1 = .ok t →
      (r.toInt = b.toInt.tmod a.toInt → exec (.remi len src dst) s = .next (t.advance (.remi len src dst))) ∧
      (r.toInt = b.toInt.fmod a.toInt → exec (.modi len src dst) s = .next (t.advance (.modi len src dst)))) ∧
    (b.toInt = -(2 : Int) ^ (lenBits len - 1) → a.toInt = -1 → l.writeInt len (openValue _ s1) (drawn s1) = .ok t →
      exec (.quoi len src dst) s = .next (t.advance (.quoi len src dst)) ∧
      exec (.divi len src dst) s = .next (t.advance (.divi len src dst)))

/-- MEIi and DEIi complete (the family's operations, log 35 and 51): the double-length product of the low half and the source,
and the unsigned quotient (high half) and remainder (low half) of both halves by the source; where the quotient does not fit
its half, both halves are open. -/
def Obligations.ExtendedResult : Prop :=
  ∀ (len : IntLen) (src dst : Gen) (s s1 t : State) (a lo hi p q : IntVal len) (l : Loc),
    readInt len src s = .ok (a, s1) → place dst s1 = .ok l → readPair len l s1 = .ok (lo, hi) →
    (writePair len l p q s1 = .ok t →
      (p.toNat + 2 ^ lenBits len * q.toNat = lo.toNat * a.toNat →
        exec (.meii len src dst) s = .next (t.advance (.meii len src dst))) ∧
      (a ≠ 0 → lo.toNat + 2 ^ lenBits len * hi.toNat = q.toNat * a.toNat + p.toNat → p.toNat < a.toNat →
        exec (.deii len src dst) s = .next (t.advance (.deii len src dst)))) ∧
    (a ≠ 0 → a.toNat * 2 ^ lenBits len ≤ lo.toNat + 2 ^ lenBits len * hi.toNat →
      writePair len l (openValue _ (drawn s1)) (openValue _ s1) (drawn (drawn s1)) = .ok t →
      exec (.deii len src dst) s = .next (t.advance (.deii len src dst)))

/-- LSHi, ASHi and ROTi complete and set no flag (R419, R420, R285 with log 50). For a count from -8 len to 8 len a left
shift multiplies by a power of two modulo 2^(8 len), a right shift divides, rounding down, and a rotation by n moves bit k
to k + n; for a count that is not allowed the result is open (log 23). -/
def Obligations.ShiftResult : Prop :=
  ∀ (len : IntLen) (cnt dst : Gen) (s s1 t : State) (n : Byte) (v r : IntVal len) (l : Loc),
    readInt .b cnt s = .ok (n, s1) → place dst s1 = .ok l → l.readInt len s1 = .ok v →
    (n.toInt.natAbs ≤ lenBits len → l.writeInt len r s1 = .ok t →
      ((r.toNat : Int) =
          (if 0 ≤ n.toInt then (v.toNat : Int) * 2 ^ n.toInt.natAbs else (v.toNat : Int) / 2 ^ n.toInt.natAbs)
            % 2 ^ lenBits len →
        exec (.lshi len cnt dst) s = .next (t.advance (.lshi len cnt dst))) ∧
      ((r.toInt - (if 0 ≤ n.toInt then v.toInt * 2 ^ n.toInt.natAbs else v.toInt / 2 ^ n.toInt.natAbs))
            % 2 ^ lenBits len = 0 →
        exec (.ashi len cnt dst) s = .next (t.advance (.ashi len cnt dst))) ∧
      ((∀ k < lenBits len, v.getLsbD k = r.getLsbD (((k : Int) + n.toInt) % lenBits len).toNat) →
        exec (.roti len cnt dst) s = .next (t.advance (.roti len cnt dst)))) ∧
    (lenBits len < n.toInt.natAbs → l.writeInt len (openValue _ s1) (drawn s1) = .ok t →
      exec (.lshi len cnt dst) s = .next (t.advance (.lshi len cnt dst)) ∧
      exec (.ashi len cnt dst) s = .next (t.advance (.ashi len cnt dst)) ∧
      exec (.roti len cnt dst) s = .next (t.advance (.roti len cnt dst)))

/-- ADDPi and SUBPi complete (the family's operations, log 26). On packed decimal operands they give the decimal sum or
difference modulo 10^(2 len), C the carry or borrow, F open; with a digit above 9 in an operand the result, C and F are
open. -/
def Obligations.DecimalResult : Prop :=
  ∀ (len : IntLen) (src dst : Gen) (s s1 t : State) (a b : IntVal len) (l : Loc),
    readInt len src s = .ok (a, s1) → place dst s1 = .ok l → l.readInt len s1 = .ok b →
    (∀ x y : Nat, x < 10 ^ (lenBits len / 4) → y < 10 ^ (lenBits len / 4) →
      a = BitVec.ofNat _ (bcdDigits (lenBits len / 4) x) → b = BitVec.ofNat _ (bcdDigits (lenBits len / 4) y) →
      (l.writeInt len (BitVec.ofNat _ (bcdDigits (lenBits len / 4) ((y + x + (s1.flag .c).toNat) % 10 ^ (lenBits len / 4))))
          (((drawn s1).setFlag .c (decide (10 ^ (lenBits len / 4) ≤ y + x + (s1.flag .c).toNat))).setFlag .f
            ((openValue 64 s1).getLsbD 0)) = .ok t →
        exec (.addpi len src dst) s = .next (t.advance (.addpi len src dst))) ∧
      (l.writeInt len (BitVec.ofNat _ (bcdDigits (lenBits len / 4)
            ((10 ^ (lenBits len / 4) + y - x - (s1.flag .c).toNat) % 10 ^ (lenBits len / 4))))
          (((drawn s1).setFlag .c (decide (y < x + (s1.flag .c).toNat))).setFlag .f ((openValue 64 s1).getLsbD 0)) = .ok t →
        exec (.subpi len src dst) s = .next (t.advance (.subpi len src dst)))) ∧
    ((∃ k < lenBits len / 4, 9 < a.toNat / 16 ^ k % 16 ∨ 9 < b.toNat / 16 ^ k % 16) →
      l.writeInt len (openValue _ (drawn s1)) (((drawn (drawn s1)).setFlag .c ((openValue 64 s1).getLsbD 1)).setFlag .f
        ((openValue 64 s1).getLsbD 0)) = .ok t →
      exec (.addpi len src dst) s = .next (t.advance (.addpi len src dst)) ∧
      exec (.subpi len src dst) s = .next (t.advance (.subpi len src dst)))

/-- SBITi, CBITi, IBITi, TBITi and the interlocked SBITIi, CBITIi complete: F takes the old bit; then the bit is set, cleared,
inverted or left. In a register the bit is Offset MOD 32; in memory it is bit Offset MOD 8 of the byte at Base + (Offset DIV
8) (R422 to R425, R55, R68). -/
def Obligations.BitResult : Prop :=
  ∀ (len : IntLen) (off base : Gen) (s s1 : State) (o : IntVal len) (new old : Bool) (i : Instr),
    readInt len off s = .ok (o, s1) →
    (i, new) ∈ [(Instr.sbiti len off base, true), (.sbitii len off base, true), (.cbiti len off base, false),
      (.cbitii len off base, false), (.ibiti len off base, !old),
      (len.pick (.tbitb off base) (.tbitw off base) (.tbitd off base), old)] →
    (∀ (r : Reg) (k : Nat), place base s1 = .ok (.reg r) → (k : Int) = o.toInt % 32 → (s1.reg r).getLsbD k = old →
      ∃ t, exec i s = .next t ∧ t.flag .f = old ∧ KeptPsr s1 t [.f] ∧ t.mem = s1.mem ∧ KeptRegs s1 t [r] ∧
        (∀ j < 32, (t.reg r).getLsbD j = if j = k then new else (s1.reg r).getLsbD j) ∧
        t.pc = s1.pc + BitVec.ofNat 32 i.size) ∧
    (∀ (a b : Dword) (k : Nat) (v : Byte), place base s1 = .ok (.mem a) → b = a + BitVec.ofInt 32 (o.toInt / 8) → (k : Int) = o.toInt % 8 →
      b.toNat < 2 ^ 24 → Memory.read s1.mem b.toNat = v → v.getLsbD k = old →
      ∃ t, exec i s = .next t ∧ t.flag .f = old ∧ KeptPsr s1 t [.f] ∧ t.regs = s1.regs ∧ KeptOutside s1 t b 1 ∧
        (∀ j < 8, (Memory.read t.mem b.toNat).getLsbD j = if j = k then new else v.getLsbD j) ∧
        t.pc = s1.pc + BitVec.ofNat 32 i.size)

/-- FFSi, CVTP and INDEXi complete (the family's operations, log 28, 49 and 50): FFS finds the lowest set bit at or above the
start and clears F, or sets F and answers 0; from a start at or beyond the operand's length its answer and F are open; CVTP
is 8 times the address plus the offset; INDEX is accumulator times (length + 1) plus index. -/
def Obligations.FindConvertIndexResult : Prop :=
  (∀ (field : RegLen) (base off : Gen) (s s1 t : State) (v : IntVal field.len) (k : Byte) (n : Nat) (l : Loc),
    readInt field.len base s = .ok (v, s1) → place off s1 = .ok l → l.readInt .b s1 = .ok k →
    (k.toNat ≤ n → n < lenBits field.len → v.getLsbD n = true → (∀ j, k.toNat ≤ j → j < n → v.getLsbD j = false) →
      l.writeInt .b (BitVec.ofNat 8 n) (s1.setFlag .f false) = .ok t →
      exec (.ffsi field base off) s = .next (t.advance (.ffsi field base off))) ∧
    (k.toNat < lenBits field.len → (∀ j, k.toNat ≤ j → j < lenBits field.len → v.getLsbD j = false) →
      l.writeInt .b 0#8 (s1.setFlag .f true) = .ok t →
      exec (.ffsi field base off) s = .next (t.advance (.ffsi field base off))) ∧
    (lenBits field.len ≤ k.toNat →
      l.writeInt .b (openValue 8 s1) ((drawn s1).setFlag .f ((openValue 64 s1).getLsbD 8)) = .ok t →
      exec (.ffsi field base off) s = .next (t.advance (.ffsi field base off)))) ∧
  (∀ (field : RegLen) (base dst : Gen) (s t : State) (a : Dword), place base s = .ok (.mem a) →
    writeInt .d dst (8#32 * a + s.reg field.reg) s = .ok t →
    exec (.cvtp field base dst) s = .next (t.advance (.cvtp field base dst))) ∧
  (∀ (len : IntLen) (acc : Reg) (size idx : Gen) (s s1 s2 : State) (n k : IntVal len) (r : Dword),
    readInt len size s = .ok (n, s1) → readInt len idx s1 = .ok (k, s2) →
    r.toNat = ((s2.reg acc).toNat * (n.toNat + 1) + k.toNat) % 2 ^ 32 →
    exec (.indexi len acc size idx) s = .next ((s2.setReg acc r).advance (.indexi len acc size idx)))

/-- CHECKi completes (the family's operation, log 27): F tells whether the source lies outside the signed bounds; inside them
the low bits of the register are the source less the lower bound. -/
def Obligations.CheckResult : Prop :=
  ∀ (len : IntLen) (dst : Reg) (bounds src : Gen) (s s1 : State) (a : Dword) (hi lo v : IntVal len),
    place bounds s = .ok (.mem a) → (Loc.mem a).readInt len s = .ok hi →
    (Loc.mem (a + BitVec.ofNat 32 len.bytes)).readInt len s = .ok lo → readInt len src s = .ok (v, s1) →
    ∃ t, exec (.checki len dst bounds src) s = .next t ∧
      t.flag .f = decide (¬(lo.toInt ≤ v.toInt ∧ v.toInt ≤ hi.toInt)) ∧ KeptPsr s1 t [.f] ∧ KeptRegs s1 t [dst] ∧
      t.mem = s1.mem ∧ KeptStacks s1 t ∧ KeptSpecial s1 t ∧
      t.pc = s1.pc + BitVec.ofNat 32 (Instr.checki len dst bounds src).size ∧
      (lo.toInt ≤ v.toInt → v.toInt ≤ hi.toInt → (t.reg dst).setWidth (lenBits len) = v - lo)

/-- EXTi and EXTSi read, INSi and INSSi write a field in the double-word at its first byte, in memory or in a register (the
family's operations, log 29). For a field of 1 to 32 bits that lies in the double-word the extracted value is zero-extended
or cut to the destination's length, and an insertion changes the field only; for another field the value extracted, or the
double-word inserted into, is open. -/
def Obligations.FieldResult : Prop :=
  ∀ (len : IntLen) (s s1 t : State) (base other : Gen) (off : Reg) (disp : Disp) (o3 : BitVec 3) (z5 : BitVec 5)
    (e : Dword) (k size : Nat) (d f : Dword) (v : IntVal len) (l m : Loc) (long : Bool) (ext ins : Instr),
    e = (if long then s.reg off else o3.setWidth 32) → size = (if long then disp.val.toNat else z5.toNat + 1) →
    ext = (if long then .exti len off base other disp else .extsi len base other o3 z5) →
    ins = (if long then .insi len off other base disp else .inssi len other base o3 z5) →
    ((∃ a : Dword, l = .mem a ∧ m = .mem (a + BitVec.ofInt 32 (e.toInt / 8)) ∧ (k : Int) = e.toInt % 8) ∨
      (∃ r, l = .reg r ∧ m = .reg r ∧ (k : Int) = e.toInt % 32)) →
    (place base s = .ok l → m.readInt .d s = .ok d →
      (1 ≤ size → k + size ≤ 32 → (∀ j < 32, f.getLsbD j = (decide (j < size) && d.getLsbD (k + j))) →
        writeInt len other (f.setWidth _) s = .ok t → exec ext s = .next (t.advance ext)) ∧
      (size < 1 ∨ 32 < k + size → writeInt len other ((openValue 32 s).setWidth _) (drawn s) = .ok t →
        exec ext s = .next (t.advance ext))) ∧
    (readInt len other s = .ok (v, s1) → place base s1 = .ok l → m.readInt .d s1 = .ok d →
      (1 ≤ size → k + size ≤ 32 →
        (∀ j < 32, f.getLsbD j = if k ≤ j ∧ j < k + size then v.getLsbD (j - k) else d.getLsbD j) →
        m.writeInt .d f s1 = .ok t → exec ins s = .next (t.advance ins)) ∧
      (size < 1 ∨ 32 < k + size → m.writeInt .d (openValue 32 s1) (drawn s1) = .ok t →
        exec ins s = .next (t.advance ins)))

/-- Scondi stores 1 or 0 by the condition of R416, and SPRi stores a dedicated register, in supervisor mode for PSR and
INTBASE, a shorter register zero-extended (R29, R30, R288, R292, R416; the widths: log 31; the register is read before the
operand is written: the model's choice, log 51). -/
def Obligations.ConditionStoreDedicated : Prop :=
  (∀ (len : IntLen) (c : Cond) (dst : Gen) (s t : State), writeInt len dst (if condHolds c s then 1#_ else 0#_) s = .ok t →
    exec (len.pick (.scondb c dst) (.scondw c dst) (.scondd c dst)) s =
      .next (t.advance (len.pick (.scondb c dst) (.scondw c dst) (.scondd c dst)))) ∧
  (∀ (len : IntLen) (a : AReg) (dst : Gen) (s t : State), (a ∈ [AReg.psr, .intbase] → s.flag .u = false) →
    writeInt len dst (match a with
      | .upsr => (s.psr.setWidth 8).setWidth _ | .fp => s.fp.setWidth _ | .sp => s.sp.setWidth _ | .sb => s.sb.setWidth _
      | .psr => s.psr.setWidth _ | .intbase => s.intbase.setWidth _ | .mod => s.mod.setWidth _) s = .ok t →
    exec (len.pick (.sprb a dst) (.sprw a dst) (.sprd a dst)) s =
      .next (t.advance (len.pick (.sprb a dst) (.sprw a dst) (.sprd a dst))))

/-- LPRi loads a dedicated register, in supervisor mode for PSR and INTBASE (R29, R259): the operand's bits go to the
register's low bits; the bits of a longer register are open (log 31), bits 12 to 15 of PSR stay 0 (log 33), UPSR is the low
byte of PSR. A source on Top of stack is popped before the register is written: the model's choice, log 51. Nothing else
changes. -/
def Obligations.LoadDedicated : Prop :=
  ∀ (len : IntLen) (a : AReg) (src : Gen) (s s1 : State) (v : IntVal len) (i : Instr), readInt len src s = .ok (v, s1) →
    i = len.pick (.lprb a src) (.lprw a src) (.lprd a src) → (a ∈ [AReg.psr, .intbase] → s.flag .u = false) →
    ∃ (w : Dword) (u : State), (∀ k < 32, k < lenBits len → w.getLsbD k = v.getLsbD k) ∧
      u = (if (a = .upsr ∨ len = .d ∨ (len = .w ∧ (a = .psr ∨ a = .mod))) then s1 else drawn s1) ∧
      exec i s = .next (State.advance (match a with
        | .upsr => { u with psr := (u.psr.extractLsb' 8 8 ++ w.setWidth 8) &&& 0x0FFF#16 }
        | .fp => { u with fp := w }
        | .sp => if u.flag .s then { u with sp1 := w } else { u with sp0 := w }
        | .sb => { u with sb := w }
        | .psr => { u with psr := w.setWidth 16 &&& 0x0FFF#16 }
        | .intbase => { u with intbase := w }
        | .mod => { u with mod := w.setWidth 16 }) i)

/-! ### Blocks and strings -/

/-- MOVMi and CMPMi complete when both blocks lie below 2^24 (the family's operations, log 18). MOVM changes no byte outside
the destination block, no register and no flag, and copies the block where the two do not overlap. CMPM changes no operand,
and Z says whether the blocks are equal. -/
def Obligations.BlockResult : Prop :=
  ∀ (len : IntLen) (src dst : Gen) (disp : Disp) (s : State) (a b : Dword) (n : Nat), disp.nonneg = true →
    n = (disp.val.toNat + 1) * len.bytes → place src s = .ok (.mem a) → place dst s = .ok (.mem b) → Fits a n → Fits b n →
    (∃ t, exec (.movmi len src dst disp) s = .next t ∧ KeptOutside s t b n ∧ t.regs = s.regs ∧ t.psr = s.psr ∧
      KeptStacks s t ∧ KeptSpecial s t ∧ t.pc = s.pc + BitVec.ofNat 32 (Instr.movmi len src dst disp).size ∧
      (a.toNat + n ≤ b.toNat ∨ b.toNat + n ≤ a.toNat →
        ∀ k < n, Memory.read t.mem (b.toNat + k) = Memory.read s.mem (a.toNat + k))) ∧
    (∃ t, exec (.cmpmi len src dst disp) s = .next t ∧ t.mem = s.mem ∧ t.regs = s.regs ∧ KeptPsr s t [.z, .n, .l] ∧
      KeptStacks s t ∧ KeptSpecial s t ∧ t.pc = s.pc + BitVec.ofNat 32 (Instr.cmpmi len src dst disp).size ∧
      (t.flag .z = true ↔ ∀ k < n, Memory.read s.mem (a.toNat + k) = Memory.read s.mem (b.toNat + k)))

/-- The string instructions complete when every element they may touch, and with option T on bytes the table, lies below 2^24
(the family's operations, log 34). `m` elements are done: R0 has counted down by `m`, R1 (and R2, but for SKPS) has moved by
`m` elements in the direction of option B. MOVS changes no byte outside the `m` elements at R2; where strings and table do
not overlap they hold the elements of R1, translated with option T, none of them one that U or W stops at, and an element
left over is one that it stops at; F tells. CMPS: the `m` pairs are equal and none stops; an element left over stops, and F
is set, or differs, and N and L compare it; else Z is set and N and L are clear. SKPS: the `m` elements do not stop, one left
over does; F tells. R3 to R7, and memory for CMPS and SKPS, are unchanged. -/
def Obligations.StringResult : Prop :=
  ∀ (len : IntLen) (tr back : Bool) (stop : StopRule) (s : State) (n : Nat) (d : Dword) (src dst : Nat → Dword)
    (el other : Nat → IntVal len),
    d = (if back then -BitVec.ofNat 32 len.bytes else BitVec.ofNat 32 len.bytes) → n = (s.reg .r0).toNat →
    (∀ k, src k = s.reg .r1 + BitVec.ofNat 32 k * d) → (∀ k, dst k = s.reg .r2 + BitVec.ofNat 32 k * d) →
    (∀ k, el k = sourceElement len tr d s k) → (∀ k, other k = elementAt len s (dst k)) →
    (∀ k < n, Fits (src k) len.bytes) → (tr = true → len = .b → Fits (s.reg .r3) 256) →
    ((∀ k < n, Fits (dst k) len.bytes) →
      (∃ t m, exec (if tr then .movsti ⟨len, back⟩ stop else .movsi len back stop) s = .next t ∧ m ≤ n ∧
        t.reg .r0 = s.reg .r0 - BitVec.ofNat 32 m ∧ t.reg .r1 = src m ∧ t.reg .r2 = dst m ∧
        KeptRegs s t [.r0, .r1, .r2] ∧ KeptPsr s t [.f] ∧ t.flag .f = decide (m < n) ∧ (stop = .none → m = n) ∧
        KeptStacks s t ∧ KeptSpecial s t ∧ t.pc = s.pc + 3#32 ∧
        (∀ a, (∀ k < m, ¬InRange a (dst k) len.bytes) → Memory.read t.mem a = Memory.read s.mem a) ∧
        ((∀ j < n, ∀ k < n, Apart (src j) len.bytes (dst k) len.bytes) →
          (tr = true → len = .b → ∀ k < n, Apart (s.reg .r3) 256 (dst k) 1) →
          (∀ k < m, ¬StopsAt len stop s (el k) ∧ elementAt len t (dst k) = el k) ∧
            (m < n → StopsAt len stop s (el m)))) ∧
      (∃ t m, exec (if tr then .cmpsti ⟨len, back⟩ stop else .cmpsi len back stop) s = .next t ∧ m ≤ n ∧
        t.reg .r0 = s.reg .r0 - BitVec.ofNat 32 m ∧ t.reg .r1 = src m ∧ t.reg .r2 = dst m ∧
        KeptRegs s t [.r0, .r1, .r2] ∧ KeptPsr s t [.f, .z, .n, .l] ∧ t.mem = s.mem ∧ KeptStacks s t ∧
        KeptSpecial s t ∧ t.pc = s.pc + 3#32 ∧ (∀ k < m, ¬StopsAt len stop s (el k) ∧ el k = other k) ∧
        ((t.flag .f = false ∧ m = n ∧ t.flag .z = true ∧ t.flag .n = false ∧ t.flag .l = false) ∨
          (t.flag .f = true ∧ m < n ∧ StopsAt len stop s (el m) ∧ t.flag .z = true ∧ t.flag .n = false ∧
            t.flag .l = false) ∨
          (t.flag .f = false ∧ m < n ∧ ¬StopsAt len stop s (el m) ∧ el m ≠ other m ∧ t.flag .z = false ∧
            t.flag .n = decide ((other m).toInt < (el m).toInt) ∧
            t.flag .l = decide ((other m).toNat < (el m).toNat))))) ∧
    (∃ t m, exec (if tr then .skpsti ⟨len, back⟩ stop else .skpsi len back stop) s = .next t ∧ m ≤ n ∧
      t.reg .r0 = s.reg .r0 - BitVec.ofNat 32 m ∧ t.reg .r1 = src m ∧ KeptRegs s t [.r0, .r1] ∧ KeptPsr s t [.f] ∧
      t.flag .f = decide (m < n) ∧ t.mem = s.mem ∧ KeptStacks s t ∧ KeptSpecial s t ∧ t.pc = s.pc + 3#32 ∧
      (∀ k < m, ¬StopsAt len stop s (el k)) ∧ (m < n → StopsAt len stop s (el m)))

/-! ### Control flow -/

/-- BR, Bcond and NOP (R416, R417, R421, which the spec marks as general knowledge): a taken branch adds the displacement to
the instruction's own address; no flag, register or byte changes. That a branch flushes the instruction queue is R66 with
log 16. The conditions 0000 to 1101 are those of R416's table; 1110 (always) and 1111 (never) are the model's (log 38). -/
def Obligations.BranchResult : Prop :=
  (∀ (d : Disp) (s : State), exec (.br d) s = .next { s with pc := s.pc + d.val, unflushed := [] }) ∧
  (∀ (c : Cond) (d : Disp) (s : State), exec (.bcond c d) s =
    .next (if (match c with
        | .eq => s.flag .z
        | .ne => !s.flag .z
        | .cs => s.flag .c
        | .cc => !s.flag .c
        | .hi => s.flag .l
        | .ls => !s.flag .l
        | .gt => s.flag .n
        | .le => !s.flag .n
        | .fs => s.flag .f
        | .fc => !s.flag .f
        | .lo => !s.flag .l && !s.flag .z
        | .hs => s.flag .l || s.flag .z
        | .lt => !s.flag .n && !s.flag .z
        | .ge => s.flag .n || s.flag .z
        | .always => true
        | .never => false)
      then { s with pc := s.pc + d.val, unflushed := [] }
      else { s with pc := s.pc + BitVec.ofNat 32 (1 + d.encode.length) })) ∧
  (∀ s : State, exec .nop s = .next { s with pc := s.pc + 1#32 }) ∧
  encode .nop = [0xA2#8] ∧ (∀ d : Disp, encode (.br d) = 0xEA#8 :: d.encode) ∧
  (∀ (c : Cond) (d : Disp), encode (.bcond c d) = (c.code ++ 0b1010#4) :: d.encode) ∧
  [Cond.eq, .ne, .cs, .cc, .hi, .ls, .gt, .le, .fs, .fc, .lo, .hs, .lt, .ge, .always, .never].map Cond.code =
    (List.range 16).map (BitVec.ofNat 4)

/-- ACBi, CASEi and JUMP complete (R426; R237 and R258 with log 50; the flush of the instruction queue: log 16): ACB adds the quick value to its index and branches while
the sum is not zero, setting no flag; CASE adds the source, sign-extended, to PC; JUMP goes to the effective address. -/
def Obligations.IndexedBranchResult : Prop :=
  (∀ (len : IntLen) (q : Quick) (idx : Gen) (d : Disp) (s t : State) (b : IntVal len) (l : Loc),
    place idx s = .ok l → l.readInt len s = .ok b →
    (b + q.signExtend (lenBits len) = 0#_ → l.writeInt len 0#_ s = .ok t →
      exec (len.pick (.acbb q idx d) (.acbw q idx d) (.acbd q idx d)) s =
        .next (t.advance (len.pick (.acbb q idx d) (.acbw q idx d) (.acbd q idx d)))) ∧
    (b + q.signExtend (lenBits len) ≠ 0#_ →
      l.writeInt len (b + q.signExtend (lenBits len)) { s with unflushed := [] } = .ok t →
      exec (len.pick (.acbb q idx d) (.acbw q idx d) (.acbd q idx d)) s = .next { t with pc := s.pc + d.val })) ∧
  (∀ (len : IntLen) (src : Gen) (s s1 : State) (v : IntVal len),
    readInt len src { s with unflushed := [] } = .ok (v, s1) →
    exec (len.pick (.caseb src) (.casew src) (.cased src)) s = .next { s1 with pc := s.pc + v.signExtend 32 }) ∧
  (∀ (dst : Gen) (s : State) (a : Dword), place dst s = .ok (.mem a) →
    exec (.jump dst) s = .next { s with pc := a, unflushed := [] })

/-- BSR and JSR push the address of the next instruction and go to their target; RET undoes it: from the state a call leaves,
RET returns behind the call with SP as before plus its displacement (R236, R257, R282, log 50; that JSR takes its address
before the push is the model's choice, log 51). Each flushes the instruction queue (R66, log 16). -/
def Obligations.CallReturn : Prop :=
  ∀ (s t : State) (ret : Dword), { s with unflushed := [] }.push32 ret = .ok t →
    (∀ d : Disp, ret = s.pc + BitVec.ofNat 32 (1 + d.encode.length) → exec (.bsr d) s = .next { t with pc := s.pc + d.val }) ∧
    (∀ (g : Gen) (a : Dword), place g s = .ok (.mem a) → ret = s.pc + BitVec.ofNat 32 (Instr.jsr g).size →
      exec (.jsr g) s = .next { t with pc := a }) ∧
    (∀ (p : Dword) (d : Disp), exec (.ret d) { t with pc := p } =
      .next (({ t with unflushed := [] }.setSp (s.sp + d.val)).setPc ret))

/-- CXP and CXPD call through a module descriptor, RXP returns (R24, R245, R246, R286, log 30 and 50; the order of reads and
pushes is the model's choice, log 51): MOD and the address of the next instruction are saved on the stack, MOD, SB and PC come
from the descriptor; RXP restores PC, MOD and SP, and reloads SB from the module table. -/
def Obligations.ExternalCall : Prop :=
  ∀ (s t : State) (i : Instr) (d sb base : Dword),
    ((∃ disp q, i = .cxp disp ∧ s.load32 (s.mod.setWidth 32 + 4#32) = .ok q ∧ s.load32 (q + 4#32 * disp.val) = .ok d) ∨
      (∃ g a, i = .cxpd g ∧ place g s = .ok (.mem a) ∧ s.load32 a = .ok d)) →
    (∃ u, ({ drawn s with unflushed := [] }).push32 (openValue 16 s ++ s.mod) = .ok u ∧
      u.push32 (s.pc + BitVec.ofNat 32 i.size) = .ok t) →
    t.load32 ((d.setWidth 16).setWidth 32) = .ok sb → t.load32 ((d.setWidth 16).setWidth 32 + 8#32) = .ok base →
    exec i s = .next { t with mod := d.setWidth 16, sb := sb, pc := base + d >>> 16 } ∧
    (∀ (e : Disp) (sb' : Dword), t.load32 (s.mod.setWidth 32) = .ok sb' →
      exec (.rxp e) { t with mod := d.setWidth 16, sb := sb, pc := base + d >>> 16 } =
        .next { { t with unflushed := [] }.setSp (s.sp + e.val) with
          mod := s.mod, sb := sb', pc := s.pc + BitVec.ofNat 32 i.size })

/-- SAVE pushes the registers of its list and RESTORE, with the list's bits in the opposite order, pops them: RESTORE after
SAVE gives back the registers and SP (R281, R287, log 41). -/
def Obligations.SaveRestore : Prop :=
  ∀ (s : State) (list mirrored : Byte), (∀ k < 8, mirrored.getLsbD k = list.getLsbD (7 - k)) → 32 ≤ s.sp.toNat →
    s.sp.toNat ≤ 2 ^ 24 →
    ∃ t, exec (.save list) s = .next t ∧ t.regs = s.regs ∧ t.psr = s.psr ∧ KeptSpecial s t ∧ t.pc = s.pc + 2#32 ∧
      t.sp = s.sp - BitVec.ofNat 32 (4 * ((List.range 8).filter (fun k => list.getLsbD k)).length) ∧
      (∀ k, s.sp.toNat ≤ k ∨ k < s.sp.toNat - 32 → Memory.read t.mem k = Memory.read s.mem k) ∧
      (∀ regs, ∃ u, exec (.restore mirrored) { t with regs := regs } = .next u ∧ u.sp = s.sp ∧ u.psr = s.psr ∧
        KeptMemory t u ∧ KeptSpecial t u ∧ u.pc = t.pc + 2#32 ∧
        ∀ r : Reg, u.reg r = if list.getLsbD r.code.toNat then s.reg r else { t with regs := regs }.reg r)

/-- ENTER saves FP, makes FP the stack pointer, makes room and saves the registers of its list; EXIT after it, whatever the
general registers hold by then, gives back FP, SP and the saved registers, and keeps the others (R250, R251, log 41). -/
def Obligations.EnterExit : Prop :=
  ∀ (s : State) (list mirrored : Byte) (d : Disp), (∀ k < 8, mirrored.getLsbD k = list.getLsbD (7 - k)) →
    0 ≤ d.val.toInt → d.val.toNat + 36 ≤ s.sp.toNat → s.sp.toNat ≤ 2 ^ 24 →
    ∃ t, exec (.enter list d) s = .next t ∧ t.fp = s.sp - 4#32 ∧ t.regs = s.regs ∧ t.psr = s.psr ∧
      t.sp = s.sp - 4#32 - d.val - BitVec.ofNat 32 (4 * ((List.range 8).filter (fun k => list.getLsbD k)).length) ∧
      t.load32 (s.sp - 4#32) = .ok s.fp ∧ t.pc = s.pc + BitVec.ofNat 32 (2 + d.encode.length) ∧
      (∀ k, s.sp.toNat ≤ k ∨ k < s.sp.toNat - (d.val.toNat + 36) → Memory.read t.mem k = Memory.read s.mem k) ∧
      (∀ regs, ∃ u, exec (.exit mirrored) { t with regs := regs } = .next u ∧ u.fp = s.fp ∧ u.sp = s.sp ∧ u.psr = s.psr ∧
        u.pc = t.pc + 2#32 ∧ KeptMemory t u ∧
        ∀ r : Reg, u.reg r = if list.getLsbD r.code.toNat then s.reg r else { t with regs := regs }.reg r)

/-- ADJSPi subtracts its operand, sign-extended, from SP; BICPSRi and BISPSRi clear and set bits of PSR, SETCFG loads CFG, in
supervisor mode where they are privileged; the byte and word forms of BICPSR and BISPSR flush the instruction queue and their
double-word forms do not; DIA flushes it and is fetched again; WAIT waits, and a waiting CPU stays as it is (R66, R227, R414,
R415, R428; log 14, 16, 32, 44, 50, 51). Bits 12 to 15 of PSR stay 0 (log 33). -/
def Obligations.StatusResult : Prop :=
  (∀ (len : IntLen) (src : Gen) (s s1 : State) (v : IntVal len), readInt len src s = .ok (v, s1) →
    exec (len.pick (.adjspb src) (.adjspw src) (.adjspd src)) s =
      .next ((s1.setSp (s1.sp - v.signExtend 32)).advance (len.pick (.adjspb src) (.adjspw src) (.adjspd src)))) ∧
  (∀ (len : IntLen) (src : Gen) (s s1 : State) (v : IntVal len), (len ≠ .b → s.flag .u = false) →
    readInt len src (if len = .d then s else { s with unflushed := [] }) = .ok (v, s1) →
    exec (len.pick (.bicpsrb src) (.bicpsrw src) (.bicpsrd src)) s =
      .next ({ s1 with psr := s1.psr &&& ~~~(v.setWidth 16) &&& 0x0FFF#16 }.advance
        (len.pick (.bicpsrb src) (.bicpsrw src) (.bicpsrd src))) ∧
    exec (len.pick (.bispsrb src) (.bispsrw src) (.bispsrd src)) s =
      .next ({ s1 with psr := (s1.psr ||| v.setWidth 16) &&& 0x0FFF#16 }.advance
        (len.pick (.bispsrb src) (.bispsrw src) (.bispsrd src)))) ∧
  (∀ (o : BitVec 4) (s : State), s.flag .u = false →
    exec (.setcfg o) s = .next { s with cfg := o, pc := s.pc + 3#32 }) ∧
  (∀ s : State, exec .dia s = .next { s with unflushed := [] }) ∧
  (∀ s : State, exec .wait s = .next { s with waiting := true, pc := s.pc + 1#32 }) ∧
  (∀ s : State, s.waiting = true → step s = .next s)

/-! ### Exceptions -/

/-- Taking a trap (R433 as log 3 adopts it) with the interrupt stack and the dispatch table in memory completes: PSR's S, U, T
and P are cleared and its other bits kept, SP0 goes down by 8, PSR (with P clear, log 15) above MOD and the return address are
pushed, MOD, SB and PC come from the descriptor at INTBASE + 4 v, and nothing else changes. -/
def Obligations.ExceptionEntry : Prop :=
  ∀ (e : Exception) (ret : Dword) (s : State), e ∉ [Exception.nvi, .nmi] → s.psr &&& ~~~psrDefined = 0#16 →
    8 ≤ s.sp0.toNat → s.sp0.toNat ≤ 2 ^ 24 → Fits (s.intbase + 4#32 * e.vector) 4 →
    ∃ t d base, takeException e ret s = .ok t ∧ t.flag .s = false ∧ t.flag .u = false ∧ t.flag .t = false ∧
      t.flag .p = false ∧ KeptPsr s t [.s, .u, .t, .p] ∧ t.sp0 = s.sp0 - 8#32 ∧ t.sp1 = s.sp1 ∧
      t.load32 (s.sp0 - 4#32) = .ok (putFlag s.psr .p false ++ s.mod) ∧ t.load32 (s.sp0 - 8#32) = .ok ret ∧
      KeptOutside s t (s.sp0 - 8#32) 8 ∧ t.load32 (s.intbase + 4#32 * e.vector) = .ok d ∧ t.mod = d.setWidth 16 ∧
      t.load32 (t.mod.setWidth 32) = .ok t.sb ∧ t.load32 (t.mod.setWidth 32 + 8#32) = .ok base ∧
      t.pc = base + d >>> 16 ∧ t.regs = s.regs ∧ t.fp = s.fp ∧ t.intbase = s.intbase ∧ t.cfg = s.cfg ∧
      t.fregs = s.fregs ∧ t.fsr = s.fsr ∧ t.waiting = s.waiting ∧ t.bbMask = s.bbMask ∧ t.nbpu = s.nbpu ∧
      t.bpu = s.bpu ∧ t.freeIdx = s.freeIdx

/-- SVC, BPT, and FLAG with F set take their traps, with vectors 5, 8 and 7 and their own address as the return address;
FLAG with F clear only advances PC (R431, R433, log 3 and 50). -/
def Obligations.TrapInstructions : Prop :=
  Exception.svc.vector = 5#32 ∧ Exception.bpt.vector = 8#32 ∧ Exception.flg.vector = 7#32 ∧
  ∀ s : State,
    (∀ t, takeException .svc s.pc s = .ok t → exec .svc s = .next t) ∧
    (∀ t, takeException .bpt s.pc s = .ok t → exec .bpt s = .next t) ∧
    (∀ t, s.flag .f = true → takeException .flg s.pc s = .ok t → exec .flag s = .next t) ∧
    (s.flag .f = false → exec .flag s = .next { s with pc := s.pc + 1#32 })

/-- Each of the 28 removed instructions, whatever its operand bits, causes the undefined instruction trap, vector 10, with
its own address as the return address (R92, R430; the entry is R433, log 3). -/
def Obligations.RemovedTrap : Prop :=
  Exception.und.vector = 10#32 ∧
  ∀ (w : Word16) (i : Instr) (s t : State),
    i ∈ [Instr.lmr w, .smr w, .rdval w, .wrval w, .movsui w, .movusi w, .ccal0c w, .ccal1c w, .ccal2c w, .ccal3c w,
      .cmov0c w, .cmov1c w, .cmov2c w, .cmov3c w, .ccmp0c w, .ccmp1c w, .ccv0ci w, .ccv1ci w, .ccv2ci w, .ccv3ci w,
      .ccv4dq w, .ccv5qd w, .lcsr w, .scsr w, .catst0 w, .catst1 w, .lcr w, .scr w] →
    takeException .und s.pc s = .ok t → exec i s = .next t

/-- In user mode every privileged form takes the illegal operation trap, vector 4, with nothing else done: BICPSRW and D,
BISPSRW and D, SETCFG, RETT, RETI, and LPRi and SPRi of PSR and INTBASE (R29, R414, R438, log 2 and 32). A divisor of zero
takes the divide-by-zero trap, vector 6, in QUOi, REMi, DIVi, MODi and DEIi (R431, log 25; before a test for an odd register:
log 51). -/
def Obligations.OperandAndModeTraps : Prop :=
  Exception.ill.vector = 4#32 ∧ Exception.dvz.vector = 6#32 ∧
  (∀ (i : Instr) (s t : State), s.flag .u = true →
    ((∃ g, i = .bicpsrw g ∨ i = .bicpsrd g ∨ i = .bispsrw g ∨ i = .bispsrd g) ∨ (∃ o, i = .setcfg o) ∨
      (∃ d, i = .rett d) ∨ i = .reti ∨
      (∃ a g, a ∈ [AReg.psr, .intbase] ∧
        i ∈ [Instr.lprb a g, .lprw a g, .lprd a g, .sprb a g, .sprw a g, .sprd a g])) →
    takeException .ill s.pc s = .ok t → exec i s = .next t) ∧
  (∀ (len : IntLen) (src dst : Gen) (i : Instr) (s s1 t : State), readInt len src s = .ok (0#_, s1) →
    i ∈ [Instr.quoi len src dst, .remi len src dst, .divi len src dst, .modi len src dst, .deii len src dst] →
    takeException .dvz s.pc s = .ok t → exec i s = .next t)

/-- RETT returns from a trap: from the state that an exception's entry leaves, in whatever mode it was taken, RETT restores PC,
PSR (P clear, log 15; bits 12 to 15 0, log 33) and MOD, reloads SB from the module table, flushes the instruction queue and
adds its displacement to the stack pointer that the restored PSR selects; both stack pointers are else as before the entry.
RETI does what RETT with displacement 0 does (R434 as log 3 and log 43 adopt it). -/
def Obligations.ReturnFromTrap : Prop :=
  ∀ (e : Exception) (ret : Dword) (d : Disp) (s t : State), takeException e ret s = .ok t →
    ∃ u, exec (.rett d) t = .next u ∧ (d.val = 0#32 → exec .reti t = .next u) ∧ u.pc = ret ∧
      u.psr = putFlag s.psr .p false &&& psrDefined ∧ u.mod = s.mod ∧ u.sp = s.sp + d.val ∧
      (if s.flag .s then u.sp0 = s.sp0 else u.sp1 = s.sp1) ∧
      t.load32 (s.mod.setWidth 32) = .ok u.sb ∧ u.unflushed = [] ∧ u.mem = t.mem ∧ u.regs = s.regs ∧ u.fp = s.fp ∧
      u.intbase = s.intbase ∧ u.cfg = s.cfg

/-! ### Floating point (the arithmetic is the external unit's: log 19) -/

/-- With CFG.F set the floating-point computations complete: the operands' bits go to the unit, its answer goes to the
destination and its FSR to FSR; DOTf and POLYf give the unit the accumulator L0 too, 64 bits in either format, and put its
answer there (R34, R316, R318); MOVf moves the bits as they are; LFSR and SFSR move FSR (R34, R300 to R319; log 19 and 20). -/
def Obligations.FloatResult : Prop :=
  ∀ (fl : FLen) (len : IntLen) (src dst : Gen) (spare : BitVec 5) (s s1 s2 t : State) (a b v : Quad) (l : Loc)
    (n : IntVal len) (m : Dword) (op : Config.FpuOp) (i : Instr) (w : Nat) (ans : Config.FpuAnswer),
    s.cfg.getLsbD 1 = true → w = 8 * fl.bytes →
    (readFloat fl src s = .ok (a, s1) → place dst s1 = .ok l → l.readFloat fl s1 = .ok b →
      (i, op) ∈ [(Instr.addf fl src dst, .add), (.subf fl src dst, .sub), (.mulf fl src dst, .mul),
        (.divf fl src dst, .div), (.scalbf fl src dst, .scalb)] →
      ans = Config.fpuAnswer op w w s1.fsr [a, b] →
      l.writeFloat fl ((ans.value.setWidth w).setWidth 64) { s1 with fsr := ans.fsr } = .ok t →
      exec i s = .next (t.advance i)) ∧
    (readFloat fl src s = .ok (a, s1) →
      (i, op) ∈ [(Instr.negf fl src dst, .neg), (.absf fl src dst, .abs), (.logbf fl src dst, .logb),
        (.movf fl src dst, .mov)] →
      ans = Config.fpuAnswer op w w s1.fsr [a] →
      writeFloat fl dst (if op = .mov then a else (ans.value.setWidth w).setWidth 64) { s1 with fsr := ans.fsr } = .ok t →
      exec i s = .next (t.advance i)) ∧
    (readFloat .long src s = .ok (a, s1) → ans = Config.fpuAnswer .movLF 64 32 s1.fsr [a] →
      writeFloat .float dst ((ans.value.setWidth 32).setWidth 64) { s1 with fsr := ans.fsr } = .ok t →
      exec (.movlf fl len src dst) s = .next (t.advance (.movlf fl len src dst))) ∧
    (readFloat .float src s = .ok (a, s1) → ans = Config.fpuAnswer .movFL 32 64 s1.fsr [a] →
      writeFloat .long dst ans.value { s1 with fsr := ans.fsr } = .ok t →
      exec (.movfl fl len src dst) s = .next (t.advance (.movfl fl len src dst))) ∧
    (readInt len src s = .ok (n, s1) → ans = Config.fpuAnswer .movIF (lenBits len) w s1.fsr [n.setWidth 64] →
      writeFloat fl dst ((ans.value.setWidth w).setWidth 64) { s1 with fsr := ans.fsr } = .ok t →
      exec (.movif fl len src dst) s = .next (t.advance (.movif fl len src dst))) ∧
    (readFloat fl src s = .ok (a, s1) →
      (i, op) ∈ [(Instr.roundfi fl len src dst, .round), (.truncfi fl len src dst, .trunc), (.floorfi fl len src dst, .floor)] →
      ans = Config.fpuAnswer op w (lenBits len) s1.fsr [a] →
      writeInt len dst (ans.value.setWidth (lenBits len)) { s1 with fsr := ans.fsr } = .ok t →
      exec i s = .next (t.advance i)) ∧
    (readFloat fl src s = .ok (a, s1) → readFloat fl dst s1 = .ok (b, s2) →
      (ans = Config.fpuAnswer .cmp w 3 s2.fsr [a, b] →
        exec (.cmpf fl src dst) s = .next (((({ s2 with fsr := ans.fsr }.setFlag .z (ans.value.getLsbD 0)).setFlag .n
          (ans.value.getLsbD 1)).setFlag .l (ans.value.getLsbD 2)).advance (.cmpf fl src dst))) ∧
      (v = s2.fregs.l0 → (i, op) ∈ [(Instr.dotf fl src dst, .dot), (.polyf fl src dst, .poly)] →
        ans = Config.fpuAnswer op w 64 s2.fsr [a, b, v] →
        exec i s = .next ({ s2 with fsr := ans.fsr, fregs := { s2.fregs with l0 := ans.value } }.advance i))) ∧
    (readInt .d src s = .ok (m, s1) →
      exec (.lfsr fl len src spare) s = .next ({ s1 with fsr := m }.advance (.lfsr fl len src spare))) ∧
    (writeInt .d dst s.fsr s = .ok t →
      exec (.sfsr fl len spare dst) s = .next (t.advance (.sfsr fl len spare dst)))

/-- With CFG.F clear every floating-point instruction takes the undefined instruction trap and does nothing else (R93, which
marks it as general knowledge; the entry is R433, log 3). -/
def Obligations.FloatDisabled : Prop :=
  ∀ (fl : FLen) (len : IntLen) (g h : Gen) (spare : BitVec 5) (i : Instr) (s t : State), s.cfg.getLsbD 1 = false →
    i ∈ [Instr.addf fl g h, .subf fl g h, .mulf fl g h, .divf fl g h, .scalbf fl g h, .negf fl g h, .absf fl g h,
      .logbf fl g h, .movf fl g h, .cmpf fl g h, .dotf fl g h, .polyf fl g h, .movlf fl len g h, .movfl fl len g h,
      .movif fl len g h, .roundfi fl len g h, .truncfi fl len g h, .floorfi fl len g h, .lfsr fl len g spare,
      .sfsr fl len spare g] →
    takeException .und s.pc s = .ok t → exec i s = .next t

/-! ### Graphics instructions -/

/-- The BB series completes (R114, R115, R117): the destination is combined with the shifted and masked source word by word,
line by line, the first word of a line under R4, the last of several under R5; R0 and R1 move by the step (-2 with option DA)
between words and by their warps after a line, R3 counts to 0, FP and SP are as before, no flag changes. First for a rectangle
of one word; then for any height and width, with the rectangles clear of the four bytes below SP and the destination of the
width at SP. On a line one word wide the pointers also move by the step: BB_W1_ADVANCE, the model's choice (D36, log 10). -/
def Obligations.BbOneWord : Prop :=
  ∀ (fn : BbFn) (da inv : Bool) (i : Instr) (s : State) (sh : Nat) (step : Dword),
    (fn, i) ∈ [(BbFn.or, Instr.bbor da inv), (.xor, .bbxor da inv), (.and, .bband da inv), (.stod, .bbstod da inv)] ∨
      (fn = .fastOr ∧ i = .bbfor ∧ da = false ∧ inv = false) →
    sh = ((s.reg .r2).setWidth 8).toNat → sh ≤ 15 → s.flag .l = decide (sh ≠ 0) → (s.reg .r4).toNat < 2 ^ 16 →
    (s.reg .r5).toNat < 2 ^ 16 → s.flag .j = false → s.flag .k = false → 4 ≤ s.sp.toNat →
    step = (if da then 0xFFFFFFFE#32 else 2#32) →
    (∀ (w : Word16) (d : Dword), s.reg .r3 = 1#32 → s.load16 s.sp = .ok 1#16 → Apart (s.reg .r0) 2 (s.sp - 4#32) 4 →
      Apart (s.reg .r1) 4 (s.sp - 4#32) 4 → s.load16 (s.reg .r0) = .ok w → s.load32 (s.reg .r1) = .ok d →
      ∃ t, exec i s = .next t ∧
        t.load32 (s.reg .r1) = .ok (bbValue fn sh (s.reg .r4) ((if inv then ~~~w else w).setWidth 32) d) ∧
        t.reg .r0 = s.reg .r0 + step + s.reg .r6 ∧ t.reg .r1 = s.reg .r1 + step + s.reg .r7 ∧ t.reg .r3 = 0#32 ∧
        KeptRegs s t [.r0, .r1, .r3] ∧ t.fp = s.fp ∧ KeptStacks s t ∧ t.psr = s.psr ∧ t.pc = s.pc + 3#32 ∧
        (∀ k, ¬InRange k (s.reg .r1) 4 → ¬InRange k (s.sp - 4#32) 4 → Memory.read t.mem k = Memory.read s.mem k)) ∧
    (∀ (h n moves : Nat) (width : Word16) (src dst : Nat → Nat → Dword) (u : State), h = (s.reg .r3).toNat → h ≠ 0 →
      s.load16 s.sp = .ok width → n = width.toNat → n ≠ 0 → moves = (if n = 1 then 1 else n - 1) →
      (∀ j k, src j k = s.reg .r0 + wordOffset moves step (s.reg .r6) j k) →
      (∀ j k, dst j k = s.reg .r1 + wordOffset moves step (s.reg .r7) j k) →
      (∀ j < h, ∀ k < n, Apart (src j k) 2 (s.sp - 4#32) 4 ∧ Apart (dst j k) (bbBytes fn sh) (s.sp - 4#32) 6) →
      forRectangle h n (fun j k => bbStepAt fn inv sh (bbMaskAt fn n k s) (src j k) (dst j k)) s = .ok u →
      ∃ t, exec i s = .next t ∧ t.reg .r0 = src h 0 ∧ t.reg .r1 = dst h 0 ∧ t.reg .r3 = 0#32 ∧
        KeptRegs s t [.r0, .r1, .r3] ∧ t.fp = s.fp ∧ KeptStacks s t ∧ t.psr = s.psr ∧ t.pc = s.pc + 3#32 ∧
        (∀ k, ¬InRange k (s.sp - 4#32) 4 → Memory.read t.mem k = Memory.read u.mem k))

/-- What a BB-series instruction that completes leaves, for every height and width: R3 is 0, R2 and R4 to R7 are unchanged,
SP is as before, PC is 3 further, no flag changes (R114, R118). Where no destination word covers the width at SP, no byte
changes but those of the destination words and the four below SP (the pointers' path: R114, R117 with log 10). -/
def Obligations.BbFrame : Prop :=
  ∀ (da inv : Bool) (i : Instr) (s t : State),
    i ∈ [Instr.bbor da inv, .bbxor da inv, .bband da inv, .bbstod da inv] ∨ (i = .bbfor ∧ da = false) →
    exec i s = .next t →
    t.reg .r3 = 0#32 ∧ KeptRegs s t [.r0, .r1, .r3] ∧ KeptStacks s t ∧ t.psr = s.psr ∧ t.pc = s.pc + 3#32 ∧
      t.sb = s.sb ∧ t.intbase = s.intbase ∧ t.mod = s.mod ∧ t.cfg = s.cfg ∧ t.fregs = s.fregs ∧ t.fsr = s.fsr ∧
      t.nbpu = s.nbpu ∧ t.bpu = s.bpu ∧ t.waiting = s.waiting ∧ t.freeIdx = s.freeIdx ∧
      (∀ (n moves : Nat) (width : Word16) (step : Dword) (dst : Nat → Nat → Dword), s.load16 s.sp = .ok width →
        n = width.toNat → moves = (if n = 1 then 1 else n - 1) → step = (if da then 0xFFFFFFFE#32 else 2#32) →
        (∀ j k, dst j k = s.reg .r1 + wordOffset moves step (s.reg .r7) j k) →
        (∀ j < (s.reg .r3).toNat, ∀ k < n, Apart (dst j k) 4 s.sp 2) →
        ∀ a, (∀ j < (s.reg .r3).toNat, ∀ k < n, ¬InRange a (dst j k) 4) → ¬InRange a (s.sp - 4#32) 4 →
          Memory.read t.mem a = Memory.read s.mem a)

/-- BITWT completes (R141): the zero-extended source word, shifted left, is ORed into the destination, a double-word, or a
word when the shift is zero; R0 and R1 move by 2 and nothing else changes. -/
def Obligations.BitwtResult : Prop :=
  ∀ (s : State) (w : Word16) (d : Quad) (sh n : Nat), sh = ((s.reg .r2).setWidth 8).toNat → sh ≤ 15 →
    s.flag .l = decide (sh ≠ 0) → n = (if sh = 0 then 2 else 4) → s.load16 (s.reg .r0) = .ok w →
    s.load n (s.reg .r1) = .ok d →
    ∃ t, exec .bitwt s = .next t ∧ t.load n (s.reg .r1) = .ok (d ||| (w.setWidth 32 <<< sh).setWidth 64) ∧
      KeptOutside s t (s.reg .r1) n ∧ t.reg .r0 = s.reg .r0 + 2#32 ∧ t.reg .r1 = s.reg .r1 + 2#32 ∧
      KeptRegs s t [.r0, .r1] ∧ t.psr = s.psr ∧ KeptStacks s t ∧ KeptSpecial s t ∧ t.pc = s.pc + 3#32

/-- EXTBLT completes (R148, R149, R150): word by word and line by line the BPU is given the source word and the destination word,
and its word is written at the destination; with L clear the first source word of each line is read a second time and both are
given to the BPU. R0 and R1 move by R4 between words, not after the last of a line (the spec's default EXTBLT_ADVANCE_LAST,
D11, log 11), and by their warps after a line; R5 and R3 end at 0; FP, SP and PSR are as before; NBPU is deasserted again.
First for a rectangle of one word; then for any height and width, with the rectangles clear of the four bytes below SP. -/
def Obligations.ExtbltOneWord : Prop :=
  ∀ s : State, (s.reg .r4 = 2#32 ∨ s.reg .r4 = 0xFFFFFFFE#32) → (s.reg .r0).toNat % 2 = 0 → (s.reg .r1).toNat % 2 = 0 →
    (s.reg .r6).toNat % 2 = 0 → (s.reg .r7).toNat % 2 = 0 → 4 ≤ s.sp.toNat → s.sp.toNat ≤ 2 ^ 24 →
    (∀ (ws wd w : Word16) (b : Nat), s.reg .r2 = s.reg .r4 → s.reg .r3 = 1#32 → Apart (s.reg .r0) 2 (s.sp - 4#32) 4 →
      Apart (s.reg .r1) 2 (s.sp - 4#32) 4 → s.load16 (s.reg .r0) = .ok ws → s.load16 (s.reg .r1) = .ok wd →
      Config.bpuResult s.bpu (if s.flag .l then [ws] else [ws, ws]) wd = (w, b) →
      ∃ t, exec .extblt s = .next t ∧ t.load16 (s.reg .r1) = .ok w ∧ t.bpu = b ∧ t.nbpu = false ∧
        t.reg .r0 = s.reg .r0 + s.reg .r6 ∧ t.reg .r1 = s.reg .r1 + s.reg .r7 ∧ t.reg .r3 = 0#32 ∧ t.reg .r5 = 0#32 ∧
        KeptRegs s t [.r0, .r1, .r3, .r5] ∧ t.fp = s.fp ∧ KeptStacks s t ∧ t.psr = s.psr ∧ t.pc = s.pc + 3#32 ∧
        (∀ k, ¬InRange k (s.reg .r1) 2 → ¬InRange k (s.sp - 4#32) 4 → Memory.read t.mem k = Memory.read s.mem k)) ∧
    (∀ (h n : Nat) (src dst : Nat → Nat → Dword) (u : State), s.reg .r2 ≠ 0#32 → (s.reg .r2).toNat % 2 = 0 →
      ((s.reg .r2).toInt < 0 ↔ (s.reg .r4).toInt < 0) → n = (s.reg .r2).toInt.natAbs / 2 → h = (s.reg .r3).toNat → h ≠ 0 →
      (∀ j k, src j k = s.reg .r0 + wordOffset (n - 1) (s.reg .r4) (s.reg .r6) j k) →
      (∀ j k, dst j k = s.reg .r1 + wordOffset (n - 1) (s.reg .r4) (s.reg .r7) j k) →
      (∀ j < h, ∀ k < n, Apart (src j k) 2 (s.sp - 4#32) 4 ∧ Apart (dst j k) 2 (s.sp - 4#32) 4) →
      forRectangle h n (fun j k => bpuStepAt (k == 0 && !s.flag .l) (src j k) (dst j k)) s = .ok u →
      ∃ t, exec .extblt s = .next t ∧ t.bpu = u.bpu ∧ t.nbpu = false ∧ t.reg .r0 = src h 0 ∧ t.reg .r1 = dst h 0 ∧
        t.reg .r3 = 0#32 ∧ t.reg .r5 = 0#32 ∧ KeptRegs s t [.r0, .r1, .r3, .r5] ∧ t.fp = s.fp ∧ KeptStacks s t ∧
        t.psr = s.psr ∧ t.pc = s.pc + 3#32 ∧
        (∀ k, ¬InRange k (s.sp - 4#32) 4 → Memory.read t.mem k = Memory.read u.mem k))

/-- MOVMPB, MOVMPW and MOVMPD complete when every element lies below 2^24 (R162 to R165): R2 ends at 0 and R0 has moved R2
times by R1; no other register and no flag changes (R166); only bytes of the elements change, and each holds the pattern's
byte as the last element that covers it lays it down (R167). With R2 = 0 nothing is written. -/
def Obligations.MovmpResult : Prop :=
  ∀ (n : Nat) (i : Instr) (s : State) (el : Nat → Dword), (n, i) ∈ [(1, Instr.movmpb), (2, .movmpw), (4, .movmpd)] →
    (∀ k, el k = s.reg .r0 + BitVec.ofNat 32 k * s.reg .r1) → (∀ k < (s.reg .r2).toNat, Fits (el k) n) →
    ∃ t, exec i s = .next t ∧ t.reg .r2 = 0#32 ∧ t.reg .r0 = s.reg .r0 + s.reg .r2 * s.reg .r1 ∧
      KeptRegs s t [.r0, .r2] ∧ t.psr = s.psr ∧ KeptStacks s t ∧ KeptSpecial s t ∧ t.pc = s.pc + 3#32 ∧
      (∀ a, (∀ k < (s.reg .r2).toNat, ¬InRange a (el k) n) → Memory.read t.mem a = Memory.read s.mem a) ∧
      (∀ a, ∀ k < (s.reg .r2).toNat, InRange a (el k) n →
        (∀ j, k < j → j < (s.reg .r2).toNat → ¬InRange a (el j) n) →
          Memory.read t.mem a = (s.reg .r3).extractLsb' (8 * (a - (el k).toNat)) 8)

/-- SBITS completes (R171, R173): for a run length of at most 25 the double-word of the table at R3 + 4 (R2 + 32 (R1 MOD 8)) is
ORed into the double-word at R0 + (R1 DIV 8) and F is 0; above 25 the destination is only read and F is 1. No register
changes. -/
def Obligations.SbitsResult : Prop :=
  ∀ (s : State) (a e d x : Dword), a = s.reg .r0 + BitVec.ofInt 32 ((s.reg .r1).toInt / 8) →
    e = s.reg .r3 + 4#32 * (s.reg .r2 + 32#32 * BitVec.ofInt 32 ((s.reg .r1).toInt % 8)) → s.load32 a = .ok d →
    ((s.reg .r2).toNat ≤ 25 → s.load32 e = .ok x →
      ∃ t, exec .sbits s = .next t ∧ t.load32 a = .ok (d ||| x) ∧ KeptOutside s t a 4 ∧ t.flag .f = false ∧
        KeptPsr s t [.f] ∧ t.regs = s.regs ∧ KeptStacks s t ∧ KeptSpecial s t ∧ t.pc = s.pc + 3#32) ∧
    (25 < (s.reg .r2).toNat → exec .sbits s = .next ((s.setFlag .f true).setPc (s.pc + 3#32)))

/-- SBITPS completes when every addressed byte lies below 2^24 (R178, R179): R1 has moved R2 times by R3 and R2 is 0; every bit
of memory is as before or is one of the addressed bits, which are all 1; no flag changes. -/
def Obligations.SbitpsResult : Prop :=
  ∀ (s : State) (off : Nat → Dword) (byte : Nat → Dword), (∀ k, off k = s.reg .r1 + BitVec.ofNat 32 k * s.reg .r3) →
    (∀ k, byte k = s.reg .r0 + BitVec.ofInt 32 ((off k).toInt / 8)) →
    (∀ k < (s.reg .r2).toNat, (byte k).toNat < 2 ^ 24) →
    ∃ t, exec .sbitps s = .next t ∧ t.reg .r2 = 0#32 ∧ t.reg .r1 = s.reg .r1 + s.reg .r2 * s.reg .r3 ∧
      KeptRegs s t [.r1, .r2] ∧ t.psr = s.psr ∧ KeptStacks s t ∧ KeptSpecial s t ∧ t.pc = s.pc + 3#32 ∧
      (∀ a j, j < 8 → ((Memory.read t.mem a).getLsbD j = true ↔ (Memory.read s.mem a).getLsbD j = true ∨
        ∃ k < (s.reg .r2).toNat, (byte k).toNat = a ∧ (j : Int) = (off k).toInt % 8))

/-- TBITS completes when the bytes from the starting to the maximum bit offset lie below 2^24 (R183 to R187; the order of the
tests, the signed comparison of R1 with R4 and the bit that is always tested are the spec's own reading, D14 and D15): with R1 at or
beyond R4 on entry L is 0 and F is the option; else `m` bits equal to the option are counted into R1 and R2, and it ends on
a differing bit (L 1, F the other value), on the run length (L 1, F the option) or on the bit offset (L 0, F the option),
at the first bit where one of these holds. Memory and every other register are unchanged. -/
def Obligations.TbitsResult : Prop :=
  ∀ (ones : Bool) (s : State) (bitAt : Nat → Bool),
    (∀ k, bitAt k = (Memory.read s.mem (s.reg .r0 + BitVec.ofInt 32 ((s.reg .r1 + BitVec.ofNat 32 k).toInt / 8)).toNat).getLsbD
      ((s.reg .r1 + BitVec.ofNat 32 k).toInt % 8).toNat) →
    (∀ k : Nat, (s.reg .r1).toInt + k < (s.reg .r4).toInt →
      (s.reg .r0 + BitVec.ofInt 32 ((s.reg .r1 + BitVec.ofNat 32 k).toInt / 8)).toNat < 2 ^ 24) →
    ((s.reg .r4).toInt ≤ (s.reg .r1).toInt →
      exec (.tbits ones) s = .next (((s.setFlag .l false).setFlag .f ones).setPc (s.pc + 3#32))) ∧
    ((s.reg .r1).toInt < (s.reg .r4).toInt →
      ∃ t m, exec (.tbits ones) s = .next t ∧ t.reg .r1 = s.reg .r1 + BitVec.ofNat 32 m ∧
        t.reg .r2 = s.reg .r2 + BitVec.ofNat 32 m ∧ KeptRegs s t [.r1, .r2] ∧ t.mem = s.mem ∧ KeptPsr s t [.f, .l] ∧
        KeptStacks s t ∧ KeptSpecial s t ∧ t.pc = s.pc + 3#32 ∧ (∀ k < m, bitAt k = ones) ∧
        (∀ k, 1 ≤ k → k < m → s.reg .r2 + BitVec.ofNat 32 k < s.reg .r3) ∧ (s.reg .r1).toInt + m ≤ (s.reg .r4).toInt ∧
        ((t.flag .l = true ∧ t.flag .f = !ones ∧ bitAt m = !ones ∧ (s.reg .r1).toInt + m < (s.reg .r4).toInt ∧
            (1 ≤ m → t.reg .r2 < s.reg .r3)) ∨
          (t.flag .l = true ∧ t.flag .f = ones ∧ 1 ≤ m ∧ s.reg .r3 ≤ t.reg .r2) ∨
          (t.flag .l = false ∧ t.flag .f = ones ∧ 1 ≤ m ∧ t.reg .r2 < s.reg .r3 ∧ t.reg .r1 = s.reg .r4)))

/-- The refusals of the graphics instructions that the spec lists in R445, for the BB series (R112, R116, R128), BITWT (R142)
and EXTBLT (R147), each when the conditions before it hold. Which one wins where several hold is the model's choice (log 48). -/
def Obligations.GraphicsRefusals : Prop :=
  ∀ (s : State) (da inv : Bool) (i : Instr) (sh : Nat), sh = ((s.reg .r2).setWidth 8).toNat →
    (i ∈ [Instr.bbor da inv, .bbxor da inv, .bband da inv, .bbstod da inv, .bbfor, .bitwt] →
      (15 < sh → exec i s = .refused .shiftOutOfRange) ∧
      (sh ≤ 15 → s.flag .l ≠ decide (sh ≠ 0) → exec i s = .refused .lFlagMismatch)) ∧
    (i ∈ [Instr.bbor da inv, .bbxor da inv, .bband da inv, .bbstod da inv, .bbfor] → sh ≤ 15 →
      s.flag .l = decide (sh ≠ 0) →
      (2 ^ 16 ≤ (s.reg .r4).toNat ∨ 2 ^ 16 ≤ (s.reg .r5).toNat → exec i s = .refused .maskHighBits) ∧
      ((s.reg .r4).toNat < 2 ^ 16 → (s.reg .r5).toNat < 2 ^ 16 →
        (s.flag .j = true ∨ s.flag .k = true → exec i s = .refused .jkSet) ∧
        (s.flag .j = false → s.flag .k = false →
          (s.reg .r3 = 0#32 → exec i s = .refused .heightZero) ∧
          (s.reg .r3 ≠ 0#32 → s.load16 s.sp = .ok 0#16 → exec i s = .refused .widthZero)))) ∧
    (s.reg .r4 ≠ 2#32 → s.reg .r4 ≠ 0xFFFFFFFE#32 → exec .extblt s = .refused .horizontalIncrement) ∧
    (s.reg .r4 = 2#32 ∨ s.reg .r4 = 0xFFFFFFFE#32 →
      (s.reg .r2 = 0#32 ∨ (s.reg .r2).toNat % 2 = 1 ∨ ¬((s.reg .r2).toInt < 0 ↔ (s.reg .r4).toInt < 0) →
        exec .extblt s = .refused .extbltWidth) ∧
      (s.reg .r2 ≠ 0#32 → (s.reg .r2).toNat % 2 = 0 → ((s.reg .r2).toInt < 0 ↔ (s.reg .r4).toInt < 0) →
        (s.reg .r3 = 0#32 → exec .extblt s = .refused .heightZero) ∧
        (s.reg .r3 ≠ 0#32 → ((s.reg .r0).toNat % 2 = 1 ∨ (s.reg .r1).toNat % 2 = 1 ∨ (s.reg .r6).toNat % 2 = 1 ∨
          (s.reg .r7).toNat % 2 = 1) → exec .extblt s = .refused .oddAddress)))

/-! ### Frames -/

/-- The frame of the instructions that read a source and read and write a destination: ADDi, ADDCi, SUBi, SUBCi, ANDi, ORi,
XORi, BICi, MULi, ADDPi, SUBPi, LSHi, ASHi, ROTi. No register changes but a destination register, SP moves only by a source
that pops, no flag changes but those named, and no byte but those of a destination in memory, whose address is computed in
the state after the source is read (R401, R407 to R413, R419, R420; for ADDCi, SUBCi, MULi, ADDPi, SUBPi, ROTi and shift
counts out of range the family's operations and the model's choices: log 1, 23, 26 and 50). -/
def Obligations.TwoOperandFrame : Prop :=
  ∀ (len : IntLen) (src dst : Gen) (i : Instr) (srcLen : IntLen) (flags : List Flag) (s t : State),
    (i, srcLen, flags) ∈ [
      (len.pick (.addb src dst) (.addw src dst) (.addd src dst), len, [.c, .f]),
      (len.pick (.addcb src dst) (.addcw src dst) (.addcd src dst), len, [.c, .f]),
      (len.pick (.subb src dst) (.subw src dst) (.subd src dst), len, [.c, .f]),
      (len.pick (.subcb src dst) (.subcw src dst) (.subcd src dst), len, [.c, .f]),
      (len.pick (.andb src dst) (.andw src dst) (.andd src dst), len, []),
      (len.pick (.orb src dst) (.orw src dst) (.ord src dst), len, []),
      (len.pick (.xorb src dst) (.xorw src dst) (.xord src dst), len, []),
      (len.pick (.bicb src dst) (.bicw src dst) (.bicd src dst), len, []),
      (.muli len src dst, len, []), (.addpi len src dst, len, [.c, .f]), (.subpi len src dst, len, [.c, .f]),
      (.lshi len src dst, .b, []), (.ashi len src dst, .b, []), (.roti len src dst, .b, [])] →
    exec i s = .next t →
    KeptSpecial s t ∧ KeptPsr s t flags ∧ (∀ r, dst ≠ .plain (.reg r) → t.reg r = s.reg r) ∧
      (¬IsTos src → KeptStacks s t) ∧ (IsTos src → t.sp = s.sp + BitVec.ofNat 32 srcLen.bytes) ∧
      (IsReg dst → KeptMemory s t) ∧
      (∀ v s1 a, readInt srcLen src s = .ok (v, s1) → place dst s1 = .ok (.mem a) → KeptOutside s t a len.bytes)

/-- The frame of the instructions that read a source and write a destination: MOVi, MOVZii, MOVXii, NEGi, ABSi, COMi, NOTi.
A destination on Top of stack moves SP down by its length; nothing changes but the destination, SP by operands on Top of stack,
and the flags named (R401, R404, R406, R427; for NEGi, ABSi, COMi and NOTi the family's operations: log 1, 24 and 50). -/
def Obligations.MoveFrame : Prop :=
  ∀ (len1 len2 : IntLen) (src dst : Gen) (i : Instr) (flags : List Flag) (s t : State),
    (i, len1, len2, flags) ∈ [
      (Instr.movb src dst, IntLen.b, IntLen.b, []), (.movw src dst, .w, .w, []), (.movd src dst, .d, .d, []),
      (.movzbw src dst, .b, .w, []), (.movzbd src dst, .b, .d, []), (.movzwd src dst, .w, .d, []),
      (.movxbw src dst, .b, .w, []), (.movxbd src dst, .b, .d, []), (.movxwd src dst, .w, .d, []),
      (.negi len2 src dst, len2, len2, [.c, .f]), (.absi len2 src dst, len2, len2, [.f]), (.comi len2 src dst, len2, len2, []),
      (.noti len2 src dst, len2, len2, [])] →
    exec i s = .next t →
    KeptSpecial s t ∧ KeptPsr s t flags ∧ (∀ r, dst ≠ .plain (.reg r) → t.reg r = s.reg r) ∧
      t.sp = s.sp + (if src = .plain .tos then BitVec.ofNat 32 len1.bytes else 0#32)
        - (if dst = .plain .tos then BitVec.ofNat 32 len2.bytes else 0#32) ∧
      (¬IsTos src → ¬IsTos dst → KeptStacks s t) ∧ (IsReg dst → KeptMemory s t) ∧
      (∀ v s1 a, readInt len1 src s = .ok (v, s1) → storeAddress dst len2.bytes s1 = .ok a → KeptOutside s t a len2.bytes)

/-- The frame of the comparisons and the bit test, which store nothing: CMPi, CMPQi, TBITi change no register but SP by
operands that pop, no byte, and no flag but those named (R402, R403, R425). -/
def Obligations.CompareFrame : Prop :=
  ∀ (len : IntLen) (q : Quick) (g h : Gen) (i : Instr) (flags : List Flag) (s t : State),
    (i, flags) ∈ [(len.pick (.cmpb g h) (.cmpw g h) (.cmpd g h), [Flag.z, .n, .l]),
      (len.pick (.cmpqb q g) (.cmpqw q g) (.cmpqd q g), [.z, .n, .l]),
      (len.pick (.tbitb g h) (.tbitw g h) (.tbitd g h), [.f])] →
    exec i s = .next t →
    KeptSpecial s t ∧ KeptPsr s t flags ∧ t.regs = s.regs ∧ KeptMemory s t ∧ (¬IsTos g → ¬IsTos h → KeptStacks s t)
end

