-- ==== Sys2Proof/Laws/State.lean ====
section
/-! SUPPORT. One lemma per field of State per update, so that no proof unfolds a record update; then what the accessors
(general registers, stack pointer, flags, floating registers) read after each update. -/

namespace Sys2Proof.Machine

/-! ### State.setFlag -/

@[simp] theorem regs_setFlag (s : State) (fl : Flag) (b : Bool) : (s.setFlag fl b).regs = s.regs := rfl
@[simp] theorem pc_setFlag (s : State) (fl : Flag) (b : Bool) : (s.setFlag fl b).pc = s.pc := rfl
@[simp] theorem fp_setFlag (s : State) (fl : Flag) (b : Bool) : (s.setFlag fl b).fp = s.fp := rfl
@[simp] theorem sp0_setFlag (s : State) (fl : Flag) (b : Bool) : (s.setFlag fl b).sp0 = s.sp0 := rfl
@[simp] theorem sp1_setFlag (s : State) (fl : Flag) (b : Bool) : (s.setFlag fl b).sp1 = s.sp1 := rfl
@[simp] theorem sb_setFlag (s : State) (fl : Flag) (b : Bool) : (s.setFlag fl b).sb = s.sb := rfl
@[simp] theorem intbase_setFlag (s : State) (fl : Flag) (b : Bool) : (s.setFlag fl b).intbase = s.intbase := rfl
@[simp] theorem mod_setFlag (s : State) (fl : Flag) (b : Bool) : (s.setFlag fl b).mod = s.mod := rfl
@[simp] theorem psr_setFlag (s : State) (fl : Flag) (b : Bool) : (s.setFlag fl b).psr = putFlag s.psr fl b := rfl
@[simp] theorem cfg_setFlag (s : State) (fl : Flag) (b : Bool) : (s.setFlag fl b).cfg = s.cfg := rfl
@[simp] theorem fregs_setFlag (s : State) (fl : Flag) (b : Bool) : (s.setFlag fl b).fregs = s.fregs := rfl
@[simp] theorem fsr_setFlag (s : State) (fl : Flag) (b : Bool) : (s.setFlag fl b).fsr = s.fsr := rfl
@[simp] theorem bbMask_setFlag (s : State) (fl : Flag) (b : Bool) : (s.setFlag fl b).bbMask = s.bbMask := rfl
@[simp] theorem nbpu_setFlag (s : State) (fl : Flag) (b : Bool) : (s.setFlag fl b).nbpu = s.nbpu := rfl
@[simp] theorem bpu_setFlag (s : State) (fl : Flag) (b : Bool) : (s.setFlag fl b).bpu = s.bpu := rfl
@[simp] theorem waiting_setFlag (s : State) (fl : Flag) (b : Bool) : (s.setFlag fl b).waiting = s.waiting := rfl
@[simp] theorem mem_setFlag (s : State) (fl : Flag) (b : Bool) : (s.setFlag fl b).mem = s.mem := rfl
@[simp] theorem unflushed_setFlag (s : State) (fl : Flag) (b : Bool) : (s.setFlag fl b).unflushed = s.unflushed := rfl
@[simp] theorem freeIdx_setFlag (s : State) (fl : Flag) (b : Bool) : (s.setFlag fl b).freeIdx = s.freeIdx := rfl

/-! ### State.setPsr -/

@[simp] theorem regs_setPsr (s : State) (v : Word16) : (s.setPsr v).regs = s.regs := rfl
@[simp] theorem pc_setPsr (s : State) (v : Word16) : (s.setPsr v).pc = s.pc := rfl
@[simp] theorem fp_setPsr (s : State) (v : Word16) : (s.setPsr v).fp = s.fp := rfl
@[simp] theorem sp0_setPsr (s : State) (v : Word16) : (s.setPsr v).sp0 = s.sp0 := rfl
@[simp] theorem sp1_setPsr (s : State) (v : Word16) : (s.setPsr v).sp1 = s.sp1 := rfl
@[simp] theorem sb_setPsr (s : State) (v : Word16) : (s.setPsr v).sb = s.sb := rfl
@[simp] theorem intbase_setPsr (s : State) (v : Word16) : (s.setPsr v).intbase = s.intbase := rfl
@[simp] theorem mod_setPsr (s : State) (v : Word16) : (s.setPsr v).mod = s.mod := rfl
@[simp] theorem psr_setPsr (s : State) (v : Word16) : (s.setPsr v).psr = v &&& psrDefined := rfl
@[simp] theorem cfg_setPsr (s : State) (v : Word16) : (s.setPsr v).cfg = s.cfg := rfl
@[simp] theorem fregs_setPsr (s : State) (v : Word16) : (s.setPsr v).fregs = s.fregs := rfl
@[simp] theorem fsr_setPsr (s : State) (v : Word16) : (s.setPsr v).fsr = s.fsr := rfl
@[simp] theorem bbMask_setPsr (s : State) (v : Word16) : (s.setPsr v).bbMask = s.bbMask := rfl
@[simp] theorem nbpu_setPsr (s : State) (v : Word16) : (s.setPsr v).nbpu = s.nbpu := rfl
@[simp] theorem bpu_setPsr (s : State) (v : Word16) : (s.setPsr v).bpu = s.bpu := rfl
@[simp] theorem waiting_setPsr (s : State) (v : Word16) : (s.setPsr v).waiting = s.waiting := rfl
@[simp] theorem mem_setPsr (s : State) (v : Word16) : (s.setPsr v).mem = s.mem := rfl
@[simp] theorem unflushed_setPsr (s : State) (v : Word16) : (s.setPsr v).unflushed = s.unflushed := rfl
@[simp] theorem freeIdx_setPsr (s : State) (v : Word16) : (s.setPsr v).freeIdx = s.freeIdx := rfl

/-! ### State.setPc -/

@[simp] theorem regs_setPc (s : State) (v : Dword) : (s.setPc v).regs = s.regs := rfl
@[simp] theorem pc_setPc (s : State) (v : Dword) : (s.setPc v).pc = v := rfl
@[simp] theorem fp_setPc (s : State) (v : Dword) : (s.setPc v).fp = s.fp := rfl
@[simp] theorem sp0_setPc (s : State) (v : Dword) : (s.setPc v).sp0 = s.sp0 := rfl
@[simp] theorem sp1_setPc (s : State) (v : Dword) : (s.setPc v).sp1 = s.sp1 := rfl
@[simp] theorem sb_setPc (s : State) (v : Dword) : (s.setPc v).sb = s.sb := rfl
@[simp] theorem intbase_setPc (s : State) (v : Dword) : (s.setPc v).intbase = s.intbase := rfl
@[simp] theorem mod_setPc (s : State) (v : Dword) : (s.setPc v).mod = s.mod := rfl
@[simp] theorem psr_setPc (s : State) (v : Dword) : (s.setPc v).psr = s.psr := rfl
@[simp] theorem cfg_setPc (s : State) (v : Dword) : (s.setPc v).cfg = s.cfg := rfl
@[simp] theorem fregs_setPc (s : State) (v : Dword) : (s.setPc v).fregs = s.fregs := rfl
@[simp] theorem fsr_setPc (s : State) (v : Dword) : (s.setPc v).fsr = s.fsr := rfl
@[simp] theorem bbMask_setPc (s : State) (v : Dword) : (s.setPc v).bbMask = s.bbMask := rfl
@[simp] theorem nbpu_setPc (s : State) (v : Dword) : (s.setPc v).nbpu = s.nbpu := rfl
@[simp] theorem bpu_setPc (s : State) (v : Dword) : (s.setPc v).bpu = s.bpu := rfl
@[simp] theorem waiting_setPc (s : State) (v : Dword) : (s.setPc v).waiting = s.waiting := rfl
@[simp] theorem mem_setPc (s : State) (v : Dword) : (s.setPc v).mem = s.mem := rfl
@[simp] theorem unflushed_setPc (s : State) (v : Dword) : (s.setPc v).unflushed = s.unflushed := rfl
@[simp] theorem freeIdx_setPc (s : State) (v : Dword) : (s.setPc v).freeIdx = s.freeIdx := rfl

/-! ### State.advance -/

@[simp] theorem regs_advance (s : State) (i : Instr) : (s.advance i).regs = s.regs := rfl
@[simp] theorem pc_advance (s : State) (i : Instr) : (s.advance i).pc = s.pc + BitVec.ofNat 32 i.size := rfl
@[simp] theorem fp_advance (s : State) (i : Instr) : (s.advance i).fp = s.fp := rfl
@[simp] theorem sp0_advance (s : State) (i : Instr) : (s.advance i).sp0 = s.sp0 := rfl
@[simp] theorem sp1_advance (s : State) (i : Instr) : (s.advance i).sp1 = s.sp1 := rfl
@[simp] theorem sb_advance (s : State) (i : Instr) : (s.advance i).sb = s.sb := rfl
@[simp] theorem intbase_advance (s : State) (i : Instr) : (s.advance i).intbase = s.intbase := rfl
@[simp] theorem mod_advance (s : State) (i : Instr) : (s.advance i).mod = s.mod := rfl
@[simp] theorem psr_advance (s : State) (i : Instr) : (s.advance i).psr = s.psr := rfl
@[simp] theorem cfg_advance (s : State) (i : Instr) : (s.advance i).cfg = s.cfg := rfl
@[simp] theorem fregs_advance (s : State) (i : Instr) : (s.advance i).fregs = s.fregs := rfl
@[simp] theorem fsr_advance (s : State) (i : Instr) : (s.advance i).fsr = s.fsr := rfl
@[simp] theorem bbMask_advance (s : State) (i : Instr) : (s.advance i).bbMask = s.bbMask := rfl
@[simp] theorem nbpu_advance (s : State) (i : Instr) : (s.advance i).nbpu = s.nbpu := rfl
@[simp] theorem bpu_advance (s : State) (i : Instr) : (s.advance i).bpu = s.bpu := rfl
@[simp] theorem waiting_advance (s : State) (i : Instr) : (s.advance i).waiting = s.waiting := rfl
@[simp] theorem mem_advance (s : State) (i : Instr) : (s.advance i).mem = s.mem := rfl
@[simp] theorem unflushed_advance (s : State) (i : Instr) : (s.advance i).unflushed = s.unflushed := rfl
@[simp] theorem freeIdx_advance (s : State) (i : Instr) : (s.advance i).freeIdx = s.freeIdx := rfl

/-! ### State.flushQueue -/

@[simp] theorem regs_flushQueue (s : State) : (s.flushQueue).regs = s.regs := rfl
@[simp] theorem pc_flushQueue (s : State) : (s.flushQueue).pc = s.pc := rfl
@[simp] theorem fp_flushQueue (s : State) : (s.flushQueue).fp = s.fp := rfl
@[simp] theorem sp0_flushQueue (s : State) : (s.flushQueue).sp0 = s.sp0 := rfl
@[simp] theorem sp1_flushQueue (s : State) : (s.flushQueue).sp1 = s.sp1 := rfl
@[simp] theorem sb_flushQueue (s : State) : (s.flushQueue).sb = s.sb := rfl
@[simp] theorem intbase_flushQueue (s : State) : (s.flushQueue).intbase = s.intbase := rfl
@[simp] theorem mod_flushQueue (s : State) : (s.flushQueue).mod = s.mod := rfl
@[simp] theorem psr_flushQueue (s : State) : (s.flushQueue).psr = s.psr := rfl
@[simp] theorem cfg_flushQueue (s : State) : (s.flushQueue).cfg = s.cfg := rfl
@[simp] theorem fregs_flushQueue (s : State) : (s.flushQueue).fregs = s.fregs := rfl
@[simp] theorem fsr_flushQueue (s : State) : (s.flushQueue).fsr = s.fsr := rfl
@[simp] theorem bbMask_flushQueue (s : State) : (s.flushQueue).bbMask = s.bbMask := rfl
@[simp] theorem nbpu_flushQueue (s : State) : (s.flushQueue).nbpu = s.nbpu := rfl
@[simp] theorem bpu_flushQueue (s : State) : (s.flushQueue).bpu = s.bpu := rfl
@[simp] theorem waiting_flushQueue (s : State) : (s.flushQueue).waiting = s.waiting := rfl
@[simp] theorem mem_flushQueue (s : State) : (s.flushQueue).mem = s.mem := rfl
@[simp] theorem unflushed_flushQueue (s : State) : (s.flushQueue).unflushed = [] := rfl
@[simp] theorem freeIdx_flushQueue (s : State) : (s.flushQueue).freeIdx = s.freeIdx := rfl

/-! ### State.drawFree -/

@[simp] theorem regs_drawFree (s : State) : (s.drawFree.2).regs = s.regs := rfl
@[simp] theorem pc_drawFree (s : State) : (s.drawFree.2).pc = s.pc := rfl
@[simp] theorem fp_drawFree (s : State) : (s.drawFree.2).fp = s.fp := rfl
@[simp] theorem sp0_drawFree (s : State) : (s.drawFree.2).sp0 = s.sp0 := rfl
@[simp] theorem sp1_drawFree (s : State) : (s.drawFree.2).sp1 = s.sp1 := rfl
@[simp] theorem sb_drawFree (s : State) : (s.drawFree.2).sb = s.sb := rfl
@[simp] theorem intbase_drawFree (s : State) : (s.drawFree.2).intbase = s.intbase := rfl
@[simp] theorem mod_drawFree (s : State) : (s.drawFree.2).mod = s.mod := rfl
@[simp] theorem psr_drawFree (s : State) : (s.drawFree.2).psr = s.psr := rfl
@[simp] theorem cfg_drawFree (s : State) : (s.drawFree.2).cfg = s.cfg := rfl
@[simp] theorem fregs_drawFree (s : State) : (s.drawFree.2).fregs = s.fregs := rfl
@[simp] theorem fsr_drawFree (s : State) : (s.drawFree.2).fsr = s.fsr := rfl
@[simp] theorem bbMask_drawFree (s : State) : (s.drawFree.2).bbMask = s.bbMask := rfl
@[simp] theorem nbpu_drawFree (s : State) : (s.drawFree.2).nbpu = s.nbpu := rfl
@[simp] theorem bpu_drawFree (s : State) : (s.drawFree.2).bpu = s.bpu := rfl
@[simp] theorem waiting_drawFree (s : State) : (s.drawFree.2).waiting = s.waiting := rfl
@[simp] theorem mem_drawFree (s : State) : (s.drawFree.2).mem = s.mem := rfl
@[simp] theorem unflushed_drawFree (s : State) : (s.drawFree.2).unflushed = s.unflushed := rfl
@[simp] theorem freeIdx_drawFree (s : State) : (s.drawFree.2).freeIdx = s.freeIdx + 1 := rfl

/-! ### State.setReg -/

@[simp] theorem pc_setReg (s : State) (r : Reg) (v : Dword) : (s.setReg r v).pc = s.pc := by cases r <;> rfl
@[simp] theorem fp_setReg (s : State) (r : Reg) (v : Dword) : (s.setReg r v).fp = s.fp := by cases r <;> rfl
@[simp] theorem sp0_setReg (s : State) (r : Reg) (v : Dword) : (s.setReg r v).sp0 = s.sp0 := by cases r <;> rfl
@[simp] theorem sp1_setReg (s : State) (r : Reg) (v : Dword) : (s.setReg r v).sp1 = s.sp1 := by cases r <;> rfl
@[simp] theorem sb_setReg (s : State) (r : Reg) (v : Dword) : (s.setReg r v).sb = s.sb := by cases r <;> rfl
@[simp] theorem intbase_setReg (s : State) (r : Reg) (v : Dword) : (s.setReg r v).intbase = s.intbase := by cases r <;> rfl
@[simp] theorem mod_setReg (s : State) (r : Reg) (v : Dword) : (s.setReg r v).mod = s.mod := by cases r <;> rfl
@[simp] theorem psr_setReg (s : State) (r : Reg) (v : Dword) : (s.setReg r v).psr = s.psr := by cases r <;> rfl
@[simp] theorem cfg_setReg (s : State) (r : Reg) (v : Dword) : (s.setReg r v).cfg = s.cfg := by cases r <;> rfl
@[simp] theorem fregs_setReg (s : State) (r : Reg) (v : Dword) : (s.setReg r v).fregs = s.fregs := by cases r <;> rfl
@[simp] theorem fsr_setReg (s : State) (r : Reg) (v : Dword) : (s.setReg r v).fsr = s.fsr := by cases r <;> rfl
@[simp] theorem bbMask_setReg (s : State) (r : Reg) (v : Dword) : (s.setReg r v).bbMask = s.bbMask := by cases r <;> rfl
@[simp] theorem nbpu_setReg (s : State) (r : Reg) (v : Dword) : (s.setReg r v).nbpu = s.nbpu := by cases r <;> rfl
@[simp] theorem bpu_setReg (s : State) (r : Reg) (v : Dword) : (s.setReg r v).bpu = s.bpu := by cases r <;> rfl
@[simp] theorem waiting_setReg (s : State) (r : Reg) (v : Dword) : (s.setReg r v).waiting = s.waiting := by cases r <;> rfl
@[simp] theorem mem_setReg (s : State) (r : Reg) (v : Dword) : (s.setReg r v).mem = s.mem := by cases r <;> rfl
@[simp] theorem unflushed_setReg (s : State) (r : Reg) (v : Dword) : (s.setReg r v).unflushed = s.unflushed := by cases r <;> rfl
@[simp] theorem freeIdx_setReg (s : State) (r : Reg) (v : Dword) : (s.setReg r v).freeIdx = s.freeIdx := by cases r <;> rfl

/-! ### State.setSp -/

@[simp] theorem regs_setSp (s : State) (v : Dword) : (s.setSp v).regs = s.regs := by unfold State.setSp; split <;> rfl
@[simp] theorem pc_setSp (s : State) (v : Dword) : (s.setSp v).pc = s.pc := by unfold State.setSp; split <;> rfl
@[simp] theorem fp_setSp (s : State) (v : Dword) : (s.setSp v).fp = s.fp := by unfold State.setSp; split <;> rfl
@[simp] theorem sb_setSp (s : State) (v : Dword) : (s.setSp v).sb = s.sb := by unfold State.setSp; split <;> rfl
@[simp] theorem intbase_setSp (s : State) (v : Dword) : (s.setSp v).intbase = s.intbase := by unfold State.setSp; split <;> rfl
@[simp] theorem mod_setSp (s : State) (v : Dword) : (s.setSp v).mod = s.mod := by unfold State.setSp; split <;> rfl
@[simp] theorem psr_setSp (s : State) (v : Dword) : (s.setSp v).psr = s.psr := by unfold State.setSp; split <;> rfl
@[simp] theorem cfg_setSp (s : State) (v : Dword) : (s.setSp v).cfg = s.cfg := by unfold State.setSp; split <;> rfl
@[simp] theorem fregs_setSp (s : State) (v : Dword) : (s.setSp v).fregs = s.fregs := by unfold State.setSp; split <;> rfl
@[simp] theorem fsr_setSp (s : State) (v : Dword) : (s.setSp v).fsr = s.fsr := by unfold State.setSp; split <;> rfl
@[simp] theorem bbMask_setSp (s : State) (v : Dword) : (s.setSp v).bbMask = s.bbMask := by unfold State.setSp; split <;> rfl
@[simp] theorem nbpu_setSp (s : State) (v : Dword) : (s.setSp v).nbpu = s.nbpu := by unfold State.setSp; split <;> rfl
@[simp] theorem bpu_setSp (s : State) (v : Dword) : (s.setSp v).bpu = s.bpu := by unfold State.setSp; split <;> rfl
@[simp] theorem waiting_setSp (s : State) (v : Dword) : (s.setSp v).waiting = s.waiting := by unfold State.setSp; split <;> rfl
@[simp] theorem mem_setSp (s : State) (v : Dword) : (s.setSp v).mem = s.mem := by unfold State.setSp; split <;> rfl
@[simp] theorem unflushed_setSp (s : State) (v : Dword) : (s.setSp v).unflushed = s.unflushed := by unfold State.setSp; split <;> rfl
@[simp] theorem freeIdx_setSp (s : State) (v : Dword) : (s.setSp v).freeIdx = s.freeIdx := by unfold State.setSp; split <;> rfl

/-! ### State.setLongReg -/

@[simp] theorem regs_setLongReg (s : State) (r : Reg) (v : Quad) : (s.setLongReg r v).regs = s.regs := by cases r <;> rfl
@[simp] theorem pc_setLongReg (s : State) (r : Reg) (v : Quad) : (s.setLongReg r v).pc = s.pc := by cases r <;> rfl
@[simp] theorem fp_setLongReg (s : State) (r : Reg) (v : Quad) : (s.setLongReg r v).fp = s.fp := by cases r <;> rfl
@[simp] theorem sp0_setLongReg (s : State) (r : Reg) (v : Quad) : (s.setLongReg r v).sp0 = s.sp0 := by cases r <;> rfl
@[simp] theorem sp1_setLongReg (s : State) (r : Reg) (v : Quad) : (s.setLongReg r v).sp1 = s.sp1 := by cases r <;> rfl
@[simp] theorem sb_setLongReg (s : State) (r : Reg) (v : Quad) : (s.setLongReg r v).sb = s.sb := by cases r <;> rfl
@[simp] theorem intbase_setLongReg (s : State) (r : Reg) (v : Quad) : (s.setLongReg r v).intbase = s.intbase := by cases r <;> rfl
@[simp] theorem mod_setLongReg (s : State) (r : Reg) (v : Quad) : (s.setLongReg r v).mod = s.mod := by cases r <;> rfl
@[simp] theorem psr_setLongReg (s : State) (r : Reg) (v : Quad) : (s.setLongReg r v).psr = s.psr := by cases r <;> rfl
@[simp] theorem cfg_setLongReg (s : State) (r : Reg) (v : Quad) : (s.setLongReg r v).cfg = s.cfg := by cases r <;> rfl
@[simp] theorem fsr_setLongReg (s : State) (r : Reg) (v : Quad) : (s.setLongReg r v).fsr = s.fsr := by cases r <;> rfl
@[simp] theorem bbMask_setLongReg (s : State) (r : Reg) (v : Quad) : (s.setLongReg r v).bbMask = s.bbMask := by cases r <;> rfl
@[simp] theorem nbpu_setLongReg (s : State) (r : Reg) (v : Quad) : (s.setLongReg r v).nbpu = s.nbpu := by cases r <;> rfl
@[simp] theorem bpu_setLongReg (s : State) (r : Reg) (v : Quad) : (s.setLongReg r v).bpu = s.bpu := by cases r <;> rfl
@[simp] theorem waiting_setLongReg (s : State) (r : Reg) (v : Quad) : (s.setLongReg r v).waiting = s.waiting := by cases r <;> rfl
@[simp] theorem mem_setLongReg (s : State) (r : Reg) (v : Quad) : (s.setLongReg r v).mem = s.mem := by cases r <;> rfl
@[simp] theorem unflushed_setLongReg (s : State) (r : Reg) (v : Quad) : (s.setLongReg r v).unflushed = s.unflushed := by cases r <;> rfl
@[simp] theorem freeIdx_setLongReg (s : State) (r : Reg) (v : Quad) : (s.setLongReg r v).freeIdx = s.freeIdx := by cases r <;> rfl

/-! ### State.setCarryOverflow -/

@[simp] theorem regs_setCarryOverflow (s : State) (c o : Bool) : (s.setCarryOverflow c o).regs = s.regs := rfl
@[simp] theorem pc_setCarryOverflow (s : State) (c o : Bool) : (s.setCarryOverflow c o).pc = s.pc := rfl
@[simp] theorem fp_setCarryOverflow (s : State) (c o : Bool) : (s.setCarryOverflow c o).fp = s.fp := rfl
@[simp] theorem sp0_setCarryOverflow (s : State) (c o : Bool) : (s.setCarryOverflow c o).sp0 = s.sp0 := rfl
@[simp] theorem sp1_setCarryOverflow (s : State) (c o : Bool) : (s.setCarryOverflow c o).sp1 = s.sp1 := rfl
@[simp] theorem sb_setCarryOverflow (s : State) (c o : Bool) : (s.setCarryOverflow c o).sb = s.sb := rfl
@[simp] theorem intbase_setCarryOverflow (s : State) (c o : Bool) : (s.setCarryOverflow c o).intbase = s.intbase := rfl
@[simp] theorem mod_setCarryOverflow (s : State) (c o : Bool) : (s.setCarryOverflow c o).mod = s.mod := rfl
@[simp] theorem psr_setCarryOverflow (s : State) (c o : Bool) : (s.setCarryOverflow c o).psr = putFlag (putFlag s.psr .c c) .f o := rfl
@[simp] theorem cfg_setCarryOverflow (s : State) (c o : Bool) : (s.setCarryOverflow c o).cfg = s.cfg := rfl
@[simp] theorem fregs_setCarryOverflow (s : State) (c o : Bool) : (s.setCarryOverflow c o).fregs = s.fregs := rfl
@[simp] theorem fsr_setCarryOverflow (s : State) (c o : Bool) : (s.setCarryOverflow c o).fsr = s.fsr := rfl
@[simp] theorem bbMask_setCarryOverflow (s : State) (c o : Bool) : (s.setCarryOverflow c o).bbMask = s.bbMask := rfl
@[simp] theorem nbpu_setCarryOverflow (s : State) (c o : Bool) : (s.setCarryOverflow c o).nbpu = s.nbpu := rfl
@[simp] theorem bpu_setCarryOverflow (s : State) (c o : Bool) : (s.setCarryOverflow c o).bpu = s.bpu := rfl
@[simp] theorem waiting_setCarryOverflow (s : State) (c o : Bool) : (s.setCarryOverflow c o).waiting = s.waiting := rfl
@[simp] theorem mem_setCarryOverflow (s : State) (c o : Bool) : (s.setCarryOverflow c o).mem = s.mem := rfl
@[simp] theorem unflushed_setCarryOverflow (s : State) (c o : Bool) : (s.setCarryOverflow c o).unflushed = s.unflushed := rfl
@[simp] theorem freeIdx_setCarryOverflow (s : State) (c o : Bool) : (s.setCarryOverflow c o).freeIdx = s.freeIdx := rfl

/-! ### State.setCompare -/

@[simp] theorem regs_setCompare {w : Nat} (s : State) (a b : BitVec w) : (s.setCompare a b).regs = s.regs := rfl
@[simp] theorem pc_setCompare {w : Nat} (s : State) (a b : BitVec w) : (s.setCompare a b).pc = s.pc := rfl
@[simp] theorem fp_setCompare {w : Nat} (s : State) (a b : BitVec w) : (s.setCompare a b).fp = s.fp := rfl
@[simp] theorem sp0_setCompare {w : Nat} (s : State) (a b : BitVec w) : (s.setCompare a b).sp0 = s.sp0 := rfl
@[simp] theorem sp1_setCompare {w : Nat} (s : State) (a b : BitVec w) : (s.setCompare a b).sp1 = s.sp1 := rfl
@[simp] theorem sb_setCompare {w : Nat} (s : State) (a b : BitVec w) : (s.setCompare a b).sb = s.sb := rfl
@[simp] theorem intbase_setCompare {w : Nat} (s : State) (a b : BitVec w) : (s.setCompare a b).intbase = s.intbase := rfl
@[simp] theorem mod_setCompare {w : Nat} (s : State) (a b : BitVec w) : (s.setCompare a b).mod = s.mod := rfl
@[simp] theorem psr_setCompare {w : Nat} (s : State) (a b : BitVec w) : (s.setCompare a b).psr = putFlag (putFlag (putFlag s.psr .z (a == b)) .n (b.slt a)) .l (b.ult a) := rfl
@[simp] theorem cfg_setCompare {w : Nat} (s : State) (a b : BitVec w) : (s.setCompare a b).cfg = s.cfg := rfl
@[simp] theorem fregs_setCompare {w : Nat} (s : State) (a b : BitVec w) : (s.setCompare a b).fregs = s.fregs := rfl
@[simp] theorem fsr_setCompare {w : Nat} (s : State) (a b : BitVec w) : (s.setCompare a b).fsr = s.fsr := rfl
@[simp] theorem bbMask_setCompare {w : Nat} (s : State) (a b : BitVec w) : (s.setCompare a b).bbMask = s.bbMask := rfl
@[simp] theorem nbpu_setCompare {w : Nat} (s : State) (a b : BitVec w) : (s.setCompare a b).nbpu = s.nbpu := rfl
@[simp] theorem bpu_setCompare {w : Nat} (s : State) (a b : BitVec w) : (s.setCompare a b).bpu = s.bpu := rfl
@[simp] theorem waiting_setCompare {w : Nat} (s : State) (a b : BitVec w) : (s.setCompare a b).waiting = s.waiting := rfl
@[simp] theorem mem_setCompare {w : Nat} (s : State) (a b : BitVec w) : (s.setCompare a b).mem = s.mem := rfl
@[simp] theorem unflushed_setCompare {w : Nat} (s : State) (a b : BitVec w) : (s.setCompare a b).unflushed = s.unflushed := rfl
@[simp] theorem freeIdx_setCompare {w : Nat} (s : State) (a b : BitVec w) : (s.setCompare a b).freeIdx = s.freeIdx := rfl

/-! ### General registers -/

/-- Writing a general register and reading any. -/
theorem reg_setReg (s : State) (r q : Reg) (v : Dword) : (s.setReg r v).reg q = if q = r then v else s.reg q := by
  cases r <;> cases q <;> rfl

@[simp] theorem reg_setReg_same (s : State) (r : Reg) (v : Dword) : (s.setReg r v).reg r = v := by
  cases r <;> rfl

theorem reg_setReg_ne (s : State) {r q : Reg} (v : Dword) (h : q ≠ r) : (s.setReg r v).reg q = s.reg q := by
  rw [reg_setReg, if_neg h]

@[simp] theorem reg_setFlag (s : State) (fl : Flag) (b : Bool) (r : Reg) : (s.setFlag fl b).reg r = s.reg r := rfl
@[simp] theorem reg_setPsr (s : State) (v : Word16) (r : Reg) : (s.setPsr v).reg r = s.reg r := rfl
@[simp] theorem reg_setPc (s : State) (v : Dword) (r : Reg) : (s.setPc v).reg r = s.reg r := rfl
@[simp] theorem reg_advance (s : State) (i : Instr) (r : Reg) : (s.advance i).reg r = s.reg r := rfl
@[simp] theorem reg_flushQueue (s : State) (r : Reg) : (s.flushQueue).reg r = s.reg r := rfl
@[simp] theorem reg_drawFree (s : State) (r : Reg) : (s.drawFree.2).reg r = s.reg r := rfl
@[simp] theorem reg_setSp (s : State) (v : Dword) (r : Reg) : (s.setSp v).reg r = s.reg r := by unfold State.setSp; split <;> rfl
@[simp] theorem reg_setLongReg (s : State) (q : Reg) (v : Quad) (r : Reg) : (s.setLongReg q v).reg r = s.reg r := by cases q <;> rfl
@[simp] theorem reg_setCarryOverflow (s : State) (c o : Bool) (r : Reg) : (s.setCarryOverflow c o).reg r = s.reg r := rfl
@[simp] theorem reg_setCompare {w : Nat} (s : State) (a b : BitVec w) (r : Reg) : (s.setCompare a b).reg r = s.reg r := rfl

/-- Two states with the same registers read the same. -/
theorem reg_congr {s t : State} (h : t.regs = s.regs) (r : Reg) : t.reg r = s.reg r := by
  cases r <;> simp [State.reg, h]

/-- The registers are what their eight reads say. -/
theorem regs_ext {s t : State} (h : ∀ r, t.reg r = s.reg r) : t.regs = s.regs := by
  have h0 := h .r0; have h1 := h .r1; have h2 := h .r2; have h3 := h .r3
  have h4 := h .r4; have h5 := h .r5; have h6 := h .r6; have h7 := h .r7
  simp only [State.reg] at h0 h1 h2 h3 h4 h5 h6 h7
  cases hs : s.regs; cases ht : t.regs
  simp_all

/-! ### Flags -/

/-- One bit of PSR after a flag is put. -/
theorem getLsbD_putFlag (v : Word16) (fl : Flag) (b : Bool) (k : Nat) :
    (putFlag v fl b).getLsbD k = if k = fl.bit then b else v.getLsbD k := by
  have hb : fl.bit < 16 := by cases fl <;> decide
  have hs : (1#16 <<< fl.bit).getLsbD k = decide (k = fl.bit) := by
    simp only [BitVec.getLsbD_shiftLeft, BitVec.getLsbD_one]
    by_cases h : k = fl.bit
    · subst h; simp [hb]
    · simp only [h, decide_false]
      by_cases h2 : k < fl.bit
      · simp [h2]
      · have : k - fl.bit ≠ 0 := by omega
        simp [this]
  unfold putFlag
  by_cases hk : k = fl.bit
  · subst hk
    cases b <;> simp_all
  · cases b <;> simp_all
    intro h
    exact ⟨BitVec.lt_of_getLsbD h, by omega⟩

theorem Flag.bit_injective {fl gl : Flag} : fl.bit = gl.bit ↔ fl = gl := by cases fl <;> cases gl <;> simp [Flag.bit]

/-- A flag after a flag is set. -/
theorem flag_setFlag (s : State) (fl gl : Flag) (b : Bool) : (s.setFlag fl b).flag gl = if gl = fl then b else s.flag gl := by
  simp only [State.flag, psr_setFlag, getLsbD_putFlag, Flag.bit_injective]

@[simp] theorem flag_setFlag_same (s : State) (fl : Flag) (b : Bool) : (s.setFlag fl b).flag fl = b := by simp [flag_setFlag]

theorem flag_setFlag_ne (s : State) {fl gl : Flag} (b : Bool) (h : gl ≠ fl) : (s.setFlag fl b).flag gl = s.flag gl := by
  simp [flag_setFlag, h]

/-- A named flag of PSR written whole: the reserved bits alone are cut. -/
@[simp] theorem flag_setPsr (s : State) (v : Word16) (fl : Flag) : (s.setPsr v).flag fl = v.getLsbD fl.bit := by
  have h : psrDefined.getLsbD fl.bit = true := by cases fl <;> decide
  simp [State.flag, h]

@[simp] theorem flag_setPc (s : State) (v : Dword) (gl : Flag) : (s.setPc v).flag gl = s.flag gl := rfl
@[simp] theorem flag_advance (s : State) (i : Instr) (gl : Flag) : (s.advance i).flag gl = s.flag gl := rfl
@[simp] theorem flag_flushQueue (s : State) (gl : Flag) : (s.flushQueue).flag gl = s.flag gl := rfl
@[simp] theorem flag_drawFree (s : State) (gl : Flag) : (s.drawFree.2).flag gl = s.flag gl := rfl
@[simp] theorem flag_setReg (s : State) (r : Reg) (v : Dword) (gl : Flag) : (s.setReg r v).flag gl = s.flag gl := by simp [State.flag]
@[simp] theorem flag_setSp (s : State) (v : Dword) (gl : Flag) : (s.setSp v).flag gl = s.flag gl := by simp [State.flag]
@[simp] theorem flag_setLongReg (s : State) (r : Reg) (v : Quad) (gl : Flag) : (s.setLongReg r v).flag gl = s.flag gl := by simp [State.flag]

@[simp] theorem setFlag_setFlag (s : State) (fl : Flag) (b c : Bool) : (s.setFlag fl b).setFlag fl c = s.setFlag fl c := by
  have h : putFlag (putFlag s.psr fl b) fl c = putFlag s.psr fl c := by
    ext k
    simp only [← BitVec.getLsbD_eq_getElem, getLsbD_putFlag]
    split <;> rfl
  simp [State.setFlag, h]

/-! ### The stack pointer -/

/-- The current stack pointer follows PSR.S. -/
theorem sp_congr {s t : State} (h0 : t.sp0 = s.sp0) (h1 : t.sp1 = s.sp1) (hp : t.flag .s = s.flag .s) : t.sp = s.sp := by
  simp [State.sp, h0, h1, hp]

@[simp] theorem sp_setSp (s : State) (v : Dword) : (s.setSp v).sp = v := by
  unfold State.sp
  rw [flag_setSp]
  unfold State.setSp
  split <;> simp_all

@[simp] theorem setSp_setSp (s : State) (v w : Dword) : (s.setSp v).setSp w = s.setSp w := by
  unfold State.setSp
  split <;> simp_all [State.flag]

@[simp] theorem setSp_sp (s : State) : s.setSp s.sp = s := by
  unfold State.setSp State.sp
  split <;> rfl

theorem sp0_setSp (s : State) (v : Dword) : (s.setSp v).sp0 = if s.flag .s then s.sp0 else v := by
  unfold State.setSp; split <;> rfl

theorem sp1_setSp (s : State) (v : Dword) : (s.setSp v).sp1 = if s.flag .s then v else s.sp1 := by
  unfold State.setSp; split <;> rfl

theorem sp_setFlag (s : State) {fl : Flag} (b : Bool) (h : Flag.s ≠ fl) : (s.setFlag fl b).sp = s.sp := by
  simp [State.sp, flag_setFlag_ne s b h]

@[simp] theorem sp_setPc (s : State) (v : Dword) : (s.setPc v).sp = s.sp := rfl
@[simp] theorem sp_advance (s : State) (i : Instr) : (s.advance i).sp = s.sp := rfl
@[simp] theorem sp_flushQueue (s : State) : (s.flushQueue).sp = s.sp := rfl
@[simp] theorem sp_drawFree (s : State) : (s.drawFree.2).sp = s.sp := rfl
@[simp] theorem sp_setReg (s : State) (r : Reg) (v : Dword) : (s.setReg r v).sp = s.sp := by simp [State.sp]
@[simp] theorem sp_setLongReg (s : State) (r : Reg) (v : Quad) : (s.setLongReg r v).sp = s.sp := by simp [State.sp]
@[simp] theorem sp_setCarryOverflow (s : State) (c o : Bool) : (s.setCarryOverflow c o).sp = s.sp := by
  rw [State.setCarryOverflow, sp_setFlag _ _ (by decide), sp_setFlag _ _ (by decide)]
@[simp] theorem sp_setCompare {w : Nat} (s : State) (a b : BitVec w) : (s.setCompare a b).sp = s.sp := by
  rw [State.setCompare, sp_setFlag _ _ (by decide), sp_setFlag _ _ (by decide), sp_setFlag _ _ (by decide)]

/-! ### Floating registers -/

/-- Writing a Long register and reading any. -/
theorem longReg_setLongReg (s : State) (r q : Reg) (v : Quad) :
    (s.setLongReg r v).longReg q = if q = r then v else s.longReg q := by
  cases r <;> cases q <;> rfl

/-- Writing a floating register changes floating registers only. -/
theorem setFloatReg_frame (s : State) (fl : FLen) (r : Reg) (v : Quad) :
    s.setFloatReg fl r v = { s with fregs := (s.setFloatReg fl r v).fregs } := by
  cases fl <;> cases r <;> rfl

/-- Writing a general register changes general registers only. -/
theorem setReg_frame (s : State) (r : Reg) (v : Dword) : s.setReg r v = { s with regs := (s.setReg r v).regs } := by
  cases r <;> rfl

end Sys2Proof.Machine
end

