-- ==== Sys2Proof/Laws/Memory.lean ====
section
/-! SUPPORT. Memory: reading after writing one byte, the canonical form, loads and stores of several bytes, the list of
bytes not yet flushed. Every law holds for every list of cells, in canonical form or not, but for the laws about that form. -/

namespace Sys2Proof.Machine

/-! ### What an operation answers -/

/-- A sequence answers `b` when its first part answers some `a` and its second part, given `a`, answers `b`. -/
theorem bind_eq_ok {α β : Type} {x : Res α} {f : α → Res β} {b : β} :
    (x >>= f) = .ok b ↔ ∃ a, x = .ok a ∧ f a = .ok b := by
  cases x <;> simp [bind, Except.bind]

/-- A first part that answers is passed on. -/
@[simp] theorem ok_bind {α β : Type} (a : α) (f : α → Res β) : ((.ok a : Res α) >>= f) = f a := rfl

@[simp] theorem error_bind {α β : Type} (e : Stop) (f : α → Res β) : ((.error e : Res α) >>= f) = .error e := rfl

@[simp] theorem pure_eq_ok {α : Type} (a : α) : (pure a : Res α) = .ok a := rfl

/-- A step goes on exactly where the operation behind it answers. -/
theorem finish_eq_next {r : Res State} {t : State} : finish r = .next t ↔ r = .ok t := by
  unfold finish
  split <;> simp

@[simp] theorem finish_ok (t : State) : finish (.ok t) = .next t := rfl

@[simp] theorem finish_refuse (r : Refusal) : finish (.error (.refuse r)) = .refused r := rfl

@[simp] theorem finish_fault (r : Fault) : finish (.error (.fault r)) = .fault r := rfl

@[simp] theorem require_true (r : Refusal) : require true r = .ok () := rfl

@[simp] theorem require_false (r : Refusal) : require false r = .error (.refuse r) := rfl

theorem require_eq_ok {c : Bool} {r : Refusal} {u : Unit} : require c r = .ok u ↔ c = true := by
  cases c <;> simp

/-! ### One byte -/

theorem read_insert (m : List Host.Cell) (a k : Nat) (b : Byte) :
    Memory.read (Memory.insert m a b) k = if k = a then b else Memory.read m k := by
  induction m with
  | nil => simp only [Memory.insert, Memory.read, eq_comm]
  | cons c m ih =>
    obtain ⟨x, y⟩ := c
    simp only [Memory.insert]
    split
    · simp only [Memory.read, eq_comm]
    · split
      · next h1 h =>
        subst h
        simp only [Memory.read]
        by_cases hk : k = a
        · simp [hk]
        · simp [hk, Ne.symm hk]
      · simp only [Memory.read, ih]
        split
        · next h1 h2 h3 => subst h3; simp [Ne.symm h2]
        · rfl

theorem read_filter (m : List Host.Cell) (a k : Nat) :
    Memory.read (m.filter (fun c => c.1 != a)) k = if k = a then 0#8 else Memory.read m k := by
  induction m with
  | nil => simp [Memory.read]
  | cons c m ih =>
    obtain ⟨x, y⟩ := c
    by_cases hx : x = a
    · subst hx
      simp only [List.filter, bne_self_eq_false, ih, Memory.read]
      split <;> simp_all [eq_comm]
    · have : (x != a) = true := by simp [hx]
      simp only [List.filter, this, Memory.read, ih]
      split
      · next h => subst h; simp [hx]
      · rfl

/-- A byte reads as what was last written to it, and a write leaves every other byte alone. -/
theorem read_write (m : List Host.Cell) (a k : Nat) (b : Byte) :
    Memory.read (Memory.write m a b) k = if k = a then b else Memory.read m k := by
  unfold Memory.write
  split
  · next h => rw [read_filter, h]
  · exact read_insert m a k b

@[simp] theorem read_write_same (m : List Host.Cell) (a : Nat) (b : Byte) : Memory.read (Memory.write m a b) a = b := by
  simp [read_write]

theorem read_write_ne (m : List Host.Cell) {a k : Nat} (b : Byte) (h : k ≠ a) :
    Memory.read (Memory.write m a b) k = Memory.read m k := by simp [read_write, h]

/-! ### The canonical form -/

theorem wf_iff (m : List Host.Cell) : Memory.wf m = true ↔
    m.Pairwise (fun c d => c.1 < d.1) ∧ ∀ c ∈ m, c.1 < 2 ^ 24 ∧ c.2 ≠ 0#8 := by
  simp [Memory.wf]

theorem mem_insert {m : List Host.Cell} {a : Nat} {b : Byte} {c : Host.Cell} (h : c ∈ Memory.insert m a b) :
    c = (a, b) ∨ c ∈ m := by
  induction m with
  | nil => simpa [Memory.insert] using h
  | cons d m ih =>
    obtain ⟨x, y⟩ := d
    simp only [Memory.insert] at h
    split at h
    · simpa using h
    · split at h
      · simp only [List.mem_cons] at h ⊢
        tauto
      · simp only [List.mem_cons] at h ⊢
        rcases h with h | h
        · exact .inr (.inl h)
        · rcases ih h with h | h
          · exact .inl h
          · exact .inr (.inr h)

theorem pairwise_insert {m : List Host.Cell} (a : Nat) (b : Byte) (h : m.Pairwise (fun c d => c.1 < d.1)) :
    (Memory.insert m a b).Pairwise (fun c d => c.1 < d.1) := by
  induction m with
  | nil => simp [Memory.insert]
  | cons d m ih =>
    obtain ⟨x, y⟩ := d
    rw [List.pairwise_cons] at h
    simp only [Memory.insert]
    split
    · next h1 =>
      refine List.pairwise_cons.2 ⟨?_, List.pairwise_cons.2 h⟩
      intro c hc
      rcases List.mem_cons.1 hc with rfl | hc
      · exact h1
      · exact lt_trans h1 (h.1 c hc)
    · split
      · next h1 h2 => subst h2; exact List.pairwise_cons.2 h
      · next h1 h2 =>
        refine List.pairwise_cons.2 ⟨?_, ih h.2⟩
        intro c hc
        rcases mem_insert hc with rfl | hc
        · simp only; omega
        · exact h.1 c hc

/-- Writing a byte of the 16-Mbyte space keeps the canonical form. -/
theorem wf_write {m : List Host.Cell} {a : Nat} (b : Byte) (ha : a < 2 ^ 24) (h : Memory.wf m = true) :
    Memory.wf (Memory.write m a b) = true := by
  rw [wf_iff] at h ⊢
  unfold Memory.write
  split
  · exact ⟨h.1.filter _, fun c hc => h.2 c (List.mem_filter.1 hc).1⟩
  · next hb =>
    refine ⟨pairwise_insert a b h.1, fun c hc => ?_⟩
    rcases mem_insert hc with rfl | hc
    · exact ⟨ha, hb⟩
    · exact h.2 c hc

theorem read_of_lt {m : List Host.Cell} {a : Nat} (h : ∀ c ∈ m, a < c.1) : Memory.read m a = 0#8 := by
  induction m with
  | nil => rfl
  | cons d m ih =>
    obtain ⟨x, y⟩ := d
    have h1 := h (x, y) (by simp)
    simp only [Memory.read]
    rw [if_neg (by simp only at h1; omega)]
    exact ih (fun c hc => h c (by simp [hc]))

/-- Two memories in canonical form that read the same are the same list. -/
theorem memory_ext {m n : List Host.Cell} (hm : Memory.wf m = true) (hn : Memory.wf n = true)
    (h : ∀ k, Memory.read m k = Memory.read n k) : m = n := by
  rw [wf_iff] at hm hn
  induction m generalizing n with
  | nil =>
    cases n with
    | nil => rfl
    | cons d n =>
      obtain ⟨x, y⟩ := d
      have := h x
      simp only [Memory.read, if_true] at this
      exact absurd this.symm (hn.2 (x, y) (by simp)).2
  | cons c m ih =>
    obtain ⟨x, y⟩ := c
    have hx := (hm.2 (x, y) (by simp)).2
    obtain ⟨hm1, hm2⟩ := List.pairwise_cons.1 hm.1
    cases n with
    | nil =>
      have := h x
      simp only [Memory.read, if_true] at this
      exact absurd this hx
    | cons d n =>
      obtain ⟨u, v⟩ := d
      have hu := (hn.2 (u, v) (by simp)).2
      obtain ⟨hn1, hn2⟩ := List.pairwise_cons.1 hn.1
      have hxu : x = u := by
        rcases Nat.lt_trichotomy x u with hlt | heq | hlt
        · have := h x
          simp only [Memory.read, if_true] at this
          rw [if_neg (by omega), read_of_lt (fun c hc => lt_trans hlt (hn1 c hc))] at this
          exact absurd this hx
        · exact heq
        · have := h u
          simp only [Memory.read, if_true] at this
          rw [if_neg (by omega), read_of_lt (fun c hc => lt_trans hlt (hm1 c hc))] at this
          exact absurd this.symm hu
      subst hxu
      have hy : y = v := by simpa [Memory.read] using h x
      subst hy
      congr 1
      refine ih ⟨hm2, fun c hc => hm.2 c (by simp [hc])⟩ ⟨hn2, fun c hc => hn.2 c (by simp [hc])⟩ (fun k => ?_)
      have := h k
      simp only [Memory.read] at this
      by_cases hk : x = k
      · subst hk
        rw [read_of_lt (fun c hc => hm1 c hc), read_of_lt (fun c hc => hn1 c hc)]
      · simpa [hk] using this

/-! ### The bytes not yet flushed -/

theorem mem_insertAddress {l : List Nat} {a k : Nat} : k ∈ insertAddress l a ↔ k ∈ l ∨ k = a := by
  induction l with
  | nil => simp [insertAddress]
  | cons x l ih =>
    simp only [insertAddress]
    split
    · simp only [List.mem_cons]; tauto
    · split
      · next h => subst h; simp only [List.mem_cons]; tauto
      · simp only [List.mem_cons, ih]; tauto

theorem pairwise_insertAddress {l : List Nat} (a : Nat) (h : l.Pairwise (· < ·)) :
    (insertAddress l a).Pairwise (· < ·) := by
  induction l with
  | nil => simp [insertAddress]
  | cons x l ih =>
    rw [List.pairwise_cons] at h
    simp only [insertAddress]
    split
    · next h1 =>
      refine List.pairwise_cons.2 ⟨fun c hc => ?_, List.pairwise_cons.2 h⟩
      rcases List.mem_cons.1 hc with rfl | hc
      · exact h1
      · exact lt_trans h1 (h.1 c hc)
    · split
      · next h1 h2 => exact List.pairwise_cons.2 h
      · next h1 h2 =>
        refine List.pairwise_cons.2 ⟨fun c hc => ?_, ih h.2⟩
        rcases mem_insertAddress.1 hc with hc | rfl
        · exact h.1 c hc
        · omega

/-! ### Addresses -/

theorem physical_of_lt {a : Dword} (h : a.toNat < 2 ^ 24) : physical a = .ok a.toNat := by
  unfold physical
  rw [if_pos h]

theorem physical_of_ge {a : Dword} (h : 2 ^ 24 ≤ a.toNat) : physical a = .error (.refuse (.addressHigh a)) := by
  have : ¬a.toNat < 2 ^ 24 := by omega
  unfold physical
  rw [if_neg this]
  rfl

theorem physical_eq_ok {a : Dword} {k : Nat} : physical a = .ok k ↔ a.toNat < 2 ^ 24 ∧ k = a.toNat := by
  by_cases h : a.toNat < 2 ^ 24
  · rw [physical_of_lt h, Except.ok.injEq]
    exact ⟨fun e => ⟨h, e.symm⟩, fun e => e.2.symm⟩
  · rw [physical_of_ge (by omega)]
    exact ⟨(nomatch ·), fun e => absurd e.1 h⟩

theorem loadByte_of_lt (s : State) {a : Dword} (h : a.toNat < 2 ^ 24) : s.loadByte a = .ok (Memory.read s.mem a.toNat) := by
  simp [State.loadByte, physical_of_lt h]

theorem loadByte_of_ge (s : State) {a : Dword} (h : 2 ^ 24 ≤ a.toNat) :
    s.loadByte a = .error (.refuse (.addressHigh a)) := by
  simp [State.loadByte, physical_of_ge h]

theorem loadByte_eq_ok {s : State} {a : Dword} {b : Byte} :
    s.loadByte a = .ok b ↔ a.toNat < 2 ^ 24 ∧ b = Memory.read s.mem a.toNat := by
  by_cases h : a.toNat < 2 ^ 24
  · rw [loadByte_of_lt s h, Except.ok.injEq]
    exact ⟨fun e => ⟨h, e.symm⟩, fun e => e.2.symm⟩
  · rw [loadByte_of_ge s (by omega)]
    exact ⟨(nomatch ·), fun e => absurd e.1 h⟩

/-- What storing a byte below 2^24 makes. -/
theorem storeByte_of_lt (s : State) {a : Dword} (b : Byte) (h : a.toNat < 2 ^ 24) : s.storeByte a b =
    .ok { s with mem := Memory.write s.mem a.toNat b, unflushed := insertAddress s.unflushed a.toNat } := by
  simp [State.storeByte, physical_of_lt h]

theorem storeByte_of_ge (s : State) {a : Dword} (b : Byte) (h : 2 ^ 24 ≤ a.toNat) :
    s.storeByte a b = .error (.refuse (.addressHigh a)) := by
  simp [State.storeByte, physical_of_ge h]

theorem storeByte_eq_ok {s t : State} {a : Dword} {b : Byte} : s.storeByte a b = .ok t ↔ a.toNat < 2 ^ 24 ∧
    t = { s with mem := Memory.write s.mem a.toNat b, unflushed := insertAddress s.unflushed a.toNat } := by
  by_cases h : a.toNat < 2 ^ 24
  · rw [storeByte_of_lt s b h, Except.ok.injEq]
    exact ⟨fun e => ⟨h, e.symm⟩, fun e => e.2.symm⟩
  · rw [storeByte_of_ge s b (by omega)]
    exact ⟨(nomatch ·), fun e => absurd e.1 h⟩

/-- The next address does not wrap below 2^24. -/
theorem toNat_add_one {a : Dword} (h : a.toNat < 2 ^ 24) : (a + 1#32).toNat = a.toNat + 1 := by
  rw [BitVec.toNat_add]
  simp
  omega

/-! ### Loads -/

/-- A load reads memory only. -/
theorem load_congr {s t : State} (h : t.mem = s.mem) (n : Nat) (a : Dword) : t.load n a = s.load n a := by
  induction n generalizing a with
  | zero => rfl
  | succ n ih => simp only [State.load, State.loadByte, h, ih]

theorem load16_congr {s t : State} (h : t.mem = s.mem) (a : Dword) : t.load16 a = s.load16 a := by
  simp only [State.load16, load_congr h]

theorem load32_congr {s t : State} (h : t.mem = s.mem) (a : Dword) : t.load32 a = s.load32 a := by
  simp only [State.load32, load_congr h]

/-- A load reads its own bytes only. -/
theorem load_congr_bytes {s t : State} (n : Nat) (a : Dword)
    (h : ∀ k, a.toNat ≤ k → k < a.toNat + n → Memory.read t.mem k = Memory.read s.mem k) : t.load n a = s.load n a := by
  induction n generalizing a with
  | zero => rfl
  | succ n ih =>
    simp only [State.load]
    by_cases ha : a.toNat < 2 ^ 24
    · rw [loadByte_of_lt t ha, loadByte_of_lt s ha, h a.toNat (by omega) (by omega)]
      have e := toNat_add_one ha
      rw [ih (a + 1#32) (fun k h1 h2 => h k (by omega) (by omega))]
    · rw [loadByte_of_ge t (by omega), loadByte_of_ge s (by omega)]
      rfl

/-- A load that lies below 2^24 answers. -/
theorem load_of_fits (s : State) {n : Nat} {a : Dword} (h : a.toNat + n ≤ 2 ^ 24) : ∃ v, s.load n a = .ok v := by
  induction n generalizing a with
  | zero => exact ⟨_, rfl⟩
  | succ n ih =>
    have ha : a.toNat < 2 ^ 24 := by omega
    obtain ⟨v, hv⟩ := ih (a := a + 1#32) (by rw [toNat_add_one ha]; omega)
    exact ⟨_, by simp only [State.load, loadByte_of_lt s ha, hv, ok_bind, pure_eq_ok]; rfl⟩

/-- A load that answers lies below 2^24. -/
theorem fits_of_load {s : State} {n : Nat} {a : Dword} {v : Quad} (h : s.load n a = .ok v) (hn : 0 < n) :
    a.toNat + n ≤ 2 ^ 24 := by
  induction n generalizing a v with
  | zero => omega
  | succ n ih =>
    simp only [State.load, bind_eq_ok, loadByte_eq_ok] at h
    obtain ⟨b, ⟨ha, -⟩, w, hw, -⟩ := h
    have e := toNat_add_one ha
    by_cases h0 : n = 0
    · omega
    · have := ih hw (by omega)
      omega

/-- The bits of a load of up to eight bytes (R50): bit `8 k + j` is bit `j` of the byte at `a + k`. -/
theorem getLsbD_load {s : State} {n : Nat} {a : Dword} {v : Quad} (h : s.load n a = .ok v) (i : Nat) :
    i < 64 → v.getLsbD i = (decide (i < 8 * n) && (Memory.read s.mem (a.toNat + i / 8)).getLsbD (i % 8)) := by
  induction n generalizing a v i with
  | zero =>
    intro _
    simp only [State.load, Except.ok.injEq] at h
    subst h
    simp
  | succ n ih =>
    intro hi
    simp only [State.load, bind_eq_ok, loadByte_eq_ok, pure_eq_ok, Except.ok.injEq] at h
    obtain ⟨b, ⟨ha, rfl⟩, w, hw, rfl⟩ := h
    have e := toNat_add_one ha
    rw [BitVec.getLsbD_or, BitVec.getLsbD_shiftLeft, BitVec.getLsbD_setWidth]
    by_cases h8 : i < 8
    · have e1 : i / 8 = 0 := by omega
      have e2 : i % 8 = i := by omega
      have e3 : i < 8 * (n + 1) := by omega
      simp [h8, hi, e1, e2, e3]
    · have hz : (Memory.read s.mem a.toNat).getLsbD i = false := BitVec.getLsbD_of_ge _ _ (by omega)
      rw [ih hw (i - 8) (by omega), e, hz]
      have e1 : a.toNat + 1 + (i - 8) / 8 = a.toNat + i / 8 := by omega
      have e2 : (i - 8) % 8 = i % 8 := by omega
      have e3 : decide (i - 8 < 8 * n) = decide (i < 8 * (n + 1)) := by
        rw [decide_eq_decide]; omega
      rw [e1, e2, e3]
      simp [h8, hi]

/-- One byte of a load (R50). -/
theorem byte_load {s : State} {n : Nat} {a : Dword} {v : Quad} (h : s.load n a = .ok v) (hn : n ≤ 8) {k : Nat} (hk : k < n) :
    v.extractLsb' (8 * k) 8 = Memory.read s.mem (a.toNat + k) := by
  apply BitVec.eq_of_getLsbD_eq
  intro j hj
  rw [BitVec.getLsbD_extractLsb', getLsbD_load h _ (by omega)]
  have e1 : (8 * k + j) / 8 = k := by omega
  have e2 : (8 * k + j) % 8 = j := by omega
  have e3 : 8 * k + j < 8 * n := by omega
  simp [hj, e1, e2, e3]

/-- A load of `n` bytes is below 2^(8n). -/
theorem load_high {s : State} {n : Nat} {a : Dword} {v : Quad} (h : s.load n a = .ok v) {i : Nat} (hi : 8 * n ≤ i) :
    v.getLsbD i = false := by
  by_cases h64 : i < 64
  · rw [getLsbD_load h i h64]; simp; omega
  · exact BitVec.getLsbD_of_ge _ _ (by omega)

/-! ### Stores -/

/-- All a store can do: it changes memory and the list of unflushed bytes only, its `n` bytes become the low bytes of `v`,
every other byte stays. -/
theorem store_spec {s t : State} {n : Nat} {a : Dword} {v : Quad} (h : s.store n a v = .ok t) :
    t = { s with mem := t.mem, unflushed := t.unflushed } ∧ (0 < n → a.toNat + n ≤ 2 ^ 24) ∧
      (∀ k, ¬(a.toNat ≤ k ∧ k < a.toNat + n) → Memory.read t.mem k = Memory.read s.mem k) ∧
      (∀ k < n, Memory.read t.mem (a.toNat + k) = (v >>> (8 * k)).setWidth 8) ∧
      (∀ k, k ∈ t.unflushed ↔ k ∈ s.unflushed ∨ a.toNat ≤ k ∧ k < a.toNat + n) := by
  induction n generalizing s a v with
  | zero =>
    simp only [State.store, Except.ok.injEq] at h
    subst h
    refine ⟨rfl, by omega, fun _ _ => rfl, by omega, fun k => ?_⟩
    constructor
    · exact .inl
    · rintro (h | h)
      · exact h
      · omega
  | succ n ih =>
    simp only [State.store, bind_eq_ok, storeByte_eq_ok] at h
    obtain ⟨u, ⟨ha, rfl⟩, hu⟩ := h
    have e := toNat_add_one ha
    obtain ⟨h1, h2, h3, h4, h5⟩ := ih hu
    rw [e] at h2 h3 h4 h5
    refine ⟨h1, by omega, fun k hk => ?_, fun k hk => ?_, fun k => ?_⟩
    · rw [h3 k (by omega)]
      exact read_write_ne _ _ (by omega)
    · cases k with
      | zero => rw [h3 _ (by omega)]; simp
      | succ k =>
        have h6 := h4 k (by omega)
        rw [show a.toNat + (k + 1) = a.toNat + 1 + k by omega, h6, ← BitVec.shiftRight_add,
          show 8 + 8 * k = 8 * (k + 1) by omega]
    · rw [h5 k]
      simp only [mem_insertAddress, or_assoc]
      refine or_congr_right ?_
      omega

/-- A store that lies below 2^24 completes. -/
theorem store_of_fits (s : State) {n : Nat} {a : Dword} (v : Quad) (h : a.toNat + n ≤ 2 ^ 24) :
    ∃ t, s.store n a v = .ok t := by
  induction n generalizing s a v with
  | zero => exact ⟨s, rfl⟩
  | succ n ih =>
    have ha : a.toNat < 2 ^ 24 := by omega
    obtain ⟨t, ht⟩ := ih
      { s with mem := Memory.write s.mem a.toNat (v.setWidth 8), unflushed := insertAddress s.unflushed a.toNat }
      (a := a + 1#32) (v >>> 8) (by rw [toNat_add_one ha]; omega)
    exact ⟨t, by rw [State.store, storeByte_of_lt s _ ha, ok_bind, ht]⟩

/-- A store looks at memory and the list of unflushed bytes only. -/
theorem store_congr {s t u : State} {n : Nat} {a : Dword} {v : Quad} (h : s.store n a v = .ok t) (hm : u.mem = s.mem)
    (hu : u.unflushed = s.unflushed) : u.store n a v = .ok { u with mem := t.mem, unflushed := t.unflushed } := by
  induction n generalizing s a v u with
  | zero =>
    simp only [State.store, Except.ok.injEq] at h
    subst h
    simp only [State.store, ← hm, ← hu]
  | succ n ih =>
    simp only [State.store, bind_eq_ok, storeByte_eq_ok] at h
    obtain ⟨w, ⟨ha, rfl⟩, hw⟩ := h
    simp only [State.store, storeByte_of_lt u _ ha, ok_bind]
    rw [ih hw (by simp only [hm]) (by simp only [hu])]

/-- A store keeps the canonical form. -/
theorem wf_store {s t : State} {n : Nat} {a : Dword} {v : Quad} (h : s.store n a v = .ok t) (hs : Memory.wf s.mem = true) :
    Memory.wf t.mem = true := by
  induction n generalizing s a v with
  | zero =>
    simp only [State.store, Except.ok.injEq] at h
    exact h ▸ hs
  | succ n ih =>
    simp only [State.store, bind_eq_ok, storeByte_eq_ok] at h
    obtain ⟨u, ⟨ha, rfl⟩, hu⟩ := h
    exact ih hu (wf_write _ ha hs)

/-- A store keeps the list of unflushed bytes strictly rising and inside memory. -/
theorem unflushed_store {s t : State} {n : Nat} {a : Dword} {v : Quad} (h : s.store n a v = .ok t)
    (hs : s.unflushed.Pairwise (· < ·) ∧ ∀ k ∈ s.unflushed, k < 2 ^ 24) :
    t.unflushed.Pairwise (· < ·) ∧ ∀ k ∈ t.unflushed, k < 2 ^ 24 := by
  induction n generalizing s a v with
  | zero =>
    simp only [State.store, Except.ok.injEq] at h
    exact h ▸ hs
  | succ n ih =>
    simp only [State.store, bind_eq_ok, storeByte_eq_ok] at h
    obtain ⟨u, ⟨ha, rfl⟩, hu⟩ := h
    refine ih hu ⟨pairwise_insertAddress _ hs.1, fun k hk => ?_⟩
    rcases mem_insertAddress.1 hk with hk | rfl
    · exact hs.2 k hk
    · exact ha

/-- Reading the bytes just stored gives the value stored, cut to their width. -/
theorem load_store_same {s t : State} {n : Nat} {a : Dword} {v : Quad} (h : s.store n a v = .ok t) (hn : n ≤ 8) :
    t.load n a = .ok (BitVec.ofNat 64 (v.toNat % 2 ^ (8 * n))) := by
  obtain ⟨-, hf, -, hb, -⟩ := store_spec h
  by_cases h0 : n = 0
  · subst h0
    simp [State.load, Nat.mod_one]
  · obtain ⟨w, hw⟩ := load_of_fits t (hf (by omega))
    rw [hw]
    congr 1
    apply BitVec.eq_of_getLsbD_eq
    intro i hi
    have e : BitVec.ofNat 64 (v.toNat % 2 ^ (8 * n)) = (v.setWidth (8 * n)).setWidth 64 := by
      apply BitVec.eq_of_toNat_eq
      simp
    rw [getLsbD_load hw i hi, e]
    simp only [BitVec.getLsbD_setWidth, hi, decide_true, Bool.true_and]
    by_cases h8 : i < 8 * n
    · rw [hb (i / 8) (by omega)]
      simp only [BitVec.getLsbD_setWidth, BitVec.getLsbD_ushiftRight]
      rw [show 8 * (i / 8) + i % 8 = i by omega]
      simp [h8, Nat.mod_lt i (show 0 < 8 by decide)]
    · simp [h8]

/-- Reading bytes that a store does not touch. -/
theorem load_store_disjoint {s t : State} {n m : Nat} {a b : Dword} {v : Quad} (h : s.store n a v = .ok t)
    (hd : b.toNat + m ≤ a.toNat ∨ a.toNat + n ≤ b.toNat) : t.load m b = s.load m b := by
  obtain ⟨-, -, hk, -, -⟩ := store_spec h
  exact load_congr_bytes m b (fun k h1 h2 => hk k (by omega))

/-! ### Words and double-words -/

theorem load32_eq_ok {s : State} {a v : Dword} : s.load32 a = .ok v ↔ ∃ w, s.load 4 a = .ok w ∧ v = w.setWidth 32 := by
  simp only [State.load32, bind_eq_ok, pure_eq_ok, Except.ok.injEq, @eq_comm _ _ v]

theorem load16_eq_ok {s : State} {a : Dword} {v : Word16} :
    s.load16 a = .ok v ↔ ∃ w, s.load 2 a = .ok w ∧ v = w.setWidth 16 := by
  simp only [State.load16, bind_eq_ok, pure_eq_ok, Except.ok.injEq, @eq_comm _ _ v]

theorem load32_of_fits (s : State) {a : Dword} (h : a.toNat + 4 ≤ 2 ^ 24) : ∃ v, s.load32 a = .ok v := by
  obtain ⟨w, hw⟩ := load_of_fits s h
  exact ⟨_, load32_eq_ok.2 ⟨w, hw, rfl⟩⟩

theorem load16_of_fits (s : State) {a : Dword} (h : a.toNat + 2 ≤ 2 ^ 24) : ∃ v, s.load16 a = .ok v := by
  obtain ⟨w, hw⟩ := load_of_fits s h
  exact ⟨_, load16_eq_ok.2 ⟨w, hw, rfl⟩⟩

theorem load32_congr_bytes {s t : State} (a : Dword)
    (h : ∀ k, a.toNat ≤ k → k < a.toNat + 4 → Memory.read t.mem k = Memory.read s.mem k) : t.load32 a = s.load32 a := by
  simp only [State.load32, load_congr_bytes 4 a h]

theorem load16_congr_bytes {s t : State} (a : Dword)
    (h : ∀ k, a.toNat ≤ k → k < a.toNat + 2 → Memory.read t.mem k = Memory.read s.mem k) : t.load16 a = s.load16 a := by
  simp only [State.load16, load_congr_bytes 2 a h]

/-- Reading back a double-word just stored. -/
theorem load32_store32_same {s t : State} {a v : Dword} (h : s.store32 a v = .ok t) : t.load32 a = .ok v := by
  refine load32_eq_ok.2 ⟨_, load_store_same h (by decide), ?_⟩
  apply BitVec.eq_of_toNat_eq
  have := v.isLt
  simp only [BitVec.toNat_setWidth, BitVec.toNat_ofNat]
  omega

/-- Reading back a word just stored. -/
theorem load16_store16_same {s t : State} {a : Dword} {v : Word16} (h : s.store16 a v = .ok t) : t.load16 a = .ok v := by
  refine load16_eq_ok.2 ⟨_, load_store_same h (by decide), ?_⟩
  apply BitVec.eq_of_toNat_eq
  have := v.isLt
  simp only [BitVec.toNat_setWidth, BitVec.toNat_ofNat]
  omega

theorem load32_store_disjoint {s t : State} {n : Nat} {a b : Dword} {v : Quad} (h : s.store n a v = .ok t)
    (hd : b.toNat + 4 ≤ a.toNat ∨ a.toNat + n ≤ b.toNat) : t.load32 b = s.load32 b := by
  simp only [State.load32, load_store_disjoint h hd]

end Sys2Proof.Machine
end

