-- ==== Sys2Proof/Laws/Ops.lean ====
section
/-! SUPPORT. What the shared operations of Machine/Ops.lean can do: the stack, entering a module, taking an exception,
returning from one. -/

namespace Sys2Proof.Machine

/-! ### The stack -/

/-- All a push can do: SP goes down by 4, the double-word is below the old SP, nothing else changes. -/
theorem push32_spec {s t : State} {v : Dword} (h : s.push32 v = .ok t) :
    t = { s.setSp (s.sp - 4#32) with mem := t.mem, unflushed := t.unflushed } ∧ (s.sp - 4#32).toNat + 4 ≤ 2 ^ 24 ∧
      t.load32 (s.sp - 4#32) = .ok v ∧
      (∀ k, ¬((s.sp - 4#32).toNat ≤ k ∧ k < (s.sp - 4#32).toNat + 4) → Memory.read t.mem k = Memory.read s.mem k) ∧
      (∀ k, k ∈ t.unflushed ↔ k ∈ s.unflushed ∨ (s.sp - 4#32).toNat ≤ k ∧ k < (s.sp - 4#32).toNat + 4) := by
  obtain ⟨h1, h2, h3, -, h5⟩ := store_spec h
  simp only [mem_setSp, unflushed_setSp] at h3 h5
  exact ⟨h1, h2 (by decide), load32_store32_same h, h3, h5⟩

theorem sp_push32 {s t : State} {v : Dword} (h : s.push32 v = .ok t) : t.sp = s.sp - 4#32 := by
  rw [(push32_spec h).1]
  exact sp_setSp s _

theorem psr_push32 {s t : State} {v : Dword} (h : s.push32 v = .ok t) : t.psr = s.psr := by
  rw [(push32_spec h).1]
  exact psr_setSp s _

/-- A push with room below 2^24 completes. -/
theorem push32_of_fits (s : State) (v : Dword) (h : (s.sp - 4#32).toNat + 4 ≤ 2 ^ 24) : ∃ t, s.push32 v = .ok t :=
  store_of_fits _ _ h

/-- All a pop can do. -/
theorem pop32_eq_ok {s t : State} {v : Dword} :
    s.pop32 = .ok (v, t) ↔ s.load32 s.sp = .ok v ∧ t = s.setSp (s.sp + 4#32) := by
  simp only [State.pop32, bind_eq_ok, pure_eq_ok, Except.ok.injEq, Prod.mk.injEq, eq_comm (b := t)]
  exact ⟨fun ⟨_, hw, e, ht⟩ => e ▸ ⟨hw, ht⟩, fun ⟨hw, ht⟩ => ⟨v, hw, rfl, ht⟩⟩

/-- A pop gives back what was pushed, and the state but for memory, the unflushed bytes and the room on the stack. -/
theorem pop32_push32 {s t : State} {v : Dword} (h : s.push32 v = .ok t) :
    t.pop32 = .ok (v, { s with mem := t.mem, unflushed := t.unflushed }) := by
  obtain ⟨h1, -, h3, -, -⟩ := push32_spec h
  rw [pop32_eq_ok, sp_push32 h]
  refine ⟨h3, ?_⟩
  have hf : t.flag .s = s.flag .s := by simp only [State.flag, psr_push32 h]
  rw [BitVec.sub_add_cancel]
  unfold State.setSp
  rw [hf]
  unfold State.setSp at h1
  unfold State.sp
  split
  · next hs => rw [if_pos hs] at h1; rw [h1]
  · next hs => rw [if_neg hs] at h1; rw [h1]

/-! ### Modules -/

/-- All entering a module can do: MOD, SB and PC come from the descriptor and the module table. -/
theorem enterModule_eq_ok {s t : State} {d : Dword} : s.enterModule d = .ok t ↔
    ∃ sb, s.load32 ((d.setWidth 16 : Word16).setWidth 32) = .ok sb ∧
      ∃ base, s.load32 ((d.setWidth 16 : Word16).setWidth 32 + 8#32) = .ok base ∧
        { s with mod := d.setWidth 16, sb := sb, pc := base + d >>> 16 } = t := by
  simp only [State.enterModule, bind_eq_ok, pure_eq_ok, Except.ok.injEq]

/-! ### Exceptions -/

/-- What taking an exception does, step by step (R433). -/
theorem takeException_eq_ok {e : Exception} {ret : Dword} {s t : State} : takeException e ret s = .ok t ↔
    ∃ u, (s.setPsr (entryPsr e s.psr)).push32 (savedStatus s) = .ok u ∧ ∃ v, u.push32 ret = .ok v ∧
      ∃ d, v.load32 (v.intbase + 4#32 * e.vector) = .ok d ∧ v.enterModule d = .ok t := by
  simp only [takeException, bind_eq_ok]

/-- PSR after entry has S, U, T and P clear. -/
theorem entryPsr_clear (e : Exception) (psr : Word16) {fl : Flag} (h : fl ∈ [Flag.s, .u, .t, .p]) :
    (entryPsr e psr).getLsbD fl.bit = false := by
  simp only [List.mem_cons, List.not_mem_nil, or_false] at h
  unfold entryPsr
  split <;> rcases h with rfl | rfl | rfl | rfl <;> simp [getLsbD_putFlag, Flag.bit, -BitVec.getLsbD_eq_getElem]

/-- PSR after entry keeps every other bit, but I where the exception is an interrupt. -/
theorem entryPsr_keep (e : Exception) (psr : Word16) {k : Nat} (h : ∀ fl ∈ [Flag.s, .u, .t, .p], fl.bit ≠ k)
    (hi : e.isInterrupt = true → k ≠ Flag.bit .i) : (entryPsr e psr).getLsbD k = psr.getLsbD k := by
  have h1 := h .s (by simp)
  have h2 := h .u (by simp)
  have h3 := h .t (by simp)
  have h4 := h .p (by simp)
  unfold entryPsr
  split
  · next he => simp only [getLsbD_putFlag, h1.symm, h2.symm, h3.symm, h4.symm, hi he, if_false]
  · simp only [getLsbD_putFlag, h1.symm, h2.symm, h3.symm, h4.symm, if_false]

/-- Entry leaves the interrupt stack selected. -/
theorem flag_s_setPsr_entryPsr (e : Exception) (s : State) : (s.setPsr (entryPsr e s.psr)).flag .s = false := by
  rw [flag_setPsr]
  exact entryPsr_clear e _ (by simp)

/-- All taking an exception can do: what it leaves of the state, the two double-words it pushes on the interrupt stack, and
where MOD, SB and PC come from. -/
theorem takeException_spec {e : Exception} {ret : Dword} {s t : State} (h : takeException e ret s = .ok t) :
    t = { s with psr := entryPsr e s.psr &&& psrDefined, sp0 := s.sp0 - 8#32, mem := t.mem, unflushed := t.unflushed,
                 mod := t.mod, sb := t.sb, pc := t.pc } ∧
      (s.sp0 - 4#32).toNat + 4 ≤ 2 ^ 24 ∧ (s.sp0 - 8#32).toNat + 4 ≤ 2 ^ 24 ∧
      t.load32 (s.sp0 - 4#32) = .ok (savedStatus s) ∧ t.load32 (s.sp0 - 8#32) = .ok ret ∧
      (∀ k, ¬((s.sp0 - 4#32).toNat ≤ k ∧ k < (s.sp0 - 4#32).toNat + 4) →
        ¬((s.sp0 - 8#32).toNat ≤ k ∧ k < (s.sp0 - 8#32).toNat + 4) → Memory.read t.mem k = Memory.read s.mem k) ∧
      ∃ d base, t.load32 (s.intbase + 4#32 * e.vector) = .ok d ∧ t.mod = d.setWidth 16 ∧
        t.load32 (t.mod.setWidth 32) = .ok t.sb ∧ t.load32 (t.mod.setWidth 32 + 8#32) = .ok base ∧
        t.pc = base + d >>> 16 := by
  obtain ⟨u, hu, v, hv, d, hd, ht⟩ := takeException_eq_ok.1 h
  obtain ⟨sb, hsb, base, hbase, rfl⟩ := enterModule_eq_ok.1 ht
  have hS := flag_s_setPsr_entryPsr e s
  have esp : (s.setPsr (entryPsr e s.psr)).sp = s.sp0 := by simp only [State.sp, hS]; rfl
  obtain ⟨u1, u2, u3, u4, -⟩ := push32_spec hu
  obtain ⟨v1, v2, v3, v4, -⟩ := push32_spec hv
  have uS : u.flag .s = false := by rw [State.flag, psr_push32 hu]; exact hS
  have eu : u.sp = s.sp0 - 4#32 := by rw [sp_push32 hu, esp]
  have e8 : s.sp0 - 4#32 - 4#32 = s.sp0 - 8#32 := by bv_omega
  rw [esp] at u1 u2 u3 u4
  rw [eu, e8] at v1 v2 v3 v4
  have hset1 : (s.setPsr (entryPsr e s.psr)).setSp (s.sp0 - 4#32) =
      { s.setPsr (entryPsr e s.psr) with sp0 := s.sp0 - 4#32 } := by
    unfold State.setSp; rw [hS]; rfl
  have hset2 : u.setSp (s.sp0 - 8#32) = { u with sp0 := s.sp0 - 8#32 } := by
    unfold State.setSp; rw [uS]; rfl
  rw [hset1] at u1
  rw [hset2] at v1
  have hib : v.intbase = s.intbase := by rw [v1, u1]; rfl
  rw [hib] at hd
  have hkeep : v.load32 (s.sp0 - 4#32) = u.load32 (s.sp0 - 4#32) := by
    refine load32_congr_bytes _ (fun k h1 h2 => v4 k ?_)
    have e4 : (s.sp0 - 4#32).toNat = (s.sp0 - 8#32).toNat + 4 := by
      rw [← e8] at v2 ⊢
      bv_omega
    omega
  have hl : ∀ a, State.load32 { v with mod := d.setWidth 16, sb := sb, pc := base + d >>> 16 } a = v.load32 a :=
    fun a => load32_congr rfl a
  refine ⟨?_, u2, v2, ?_, ?_, ?_, d, base, ?_, rfl, ?_, ?_, rfl⟩
  · rw [v1, u1]; rfl
  · rw [hl, hkeep, u3]
  · rw [hl, v3]
  · intro k k1 k2
    exact (v4 k k2).trans (u4 k k1)
  · rw [hl, hd]
  · rw [hl]; exact hsb
  · rw [hl]; exact hbase

/-- What the return from a trap does, step by step (R434). -/
theorem returnFromTrap_eq_ok {disp : Dword} {s t : State} : returnFromTrap disp s = .ok t ↔
    ∃ pc u, s.pop32 = .ok (pc, u) ∧ ∃ saved v, u.pop32 = .ok (saved, v) ∧
      ∃ sb, v.load32 ((saved.setWidth 16 : Word16).setWidth 32) = .ok sb ∧
        State.setSp { v.setPsr (saved.extractLsb' 16 16) with mod := saved.setWidth 16, sb := sb, pc := pc }
          (State.sp { v.setPsr (saved.extractLsb' 16 16) with mod := saved.setWidth 16, sb := sb, pc := pc } + disp) = t := by
  simp only [returnFromTrap, bind_eq_ok, pure_eq_ok, Except.ok.injEq, Prod.exists]

/-! ### Privilege -/

theorem privileged_supervisor {s : State} (r : Res State) (h : s.flag .u = false) : privileged s r = r := by
  simp [privileged, h]

theorem privileged_user {s : State} (r : Res State) (h : s.flag .u = true) :
    privileged s r = takeException .ill s.pc s := by
  simp [privileged, h]

end Sys2Proof.Machine
end

