-- ==== Sys2Proof/Laws/Operands.lean ====
section
/-! SUPPORT. What placing, reading and writing an operand can do (Machine/Operands.lean). -/

namespace Sys2Proof.Machine

/-! ### The low bytes of a register -/

theorem getLsbD_lowMask (n k : Nat) : (lowMask n).getLsbD k = (decide (k < 32) && decide (k < 8 * n)) := by
  simp [lowMask, BitVec.getLsbD_ofNat, Nat.testBit_two_pow_sub_one]

/-- Writing `n` low bytes of a register keeps the rest. -/
theorem getLsbD_mergeLow (n : Nat) (old v : Dword) {k : Nat} (hk : k < 32) :
    (mergeLow n old v).getLsbD k = if k < 8 * n then v.getLsbD k else old.getLsbD k := by
  unfold mergeLow
  rw [BitVec.getLsbD_or, BitVec.getLsbD_and, BitVec.getLsbD_and, BitVec.getLsbD_not, getLsbD_lowMask]
  by_cases h : k < 8 * n <;> simp [h, hk]

@[simp] theorem mergeLow_four (old v : Dword) : mergeLow 4 old v = v := by
  apply BitVec.eq_of_getLsbD_eq
  intro k hk
  rw [getLsbD_mergeLow _ _ _ hk, if_pos (by omega)]

/-! ### Places depend on these parts of the state -/

/-- Two states with the same registers, base registers, current stack pointer and memory place a base mode alike. -/
theorem placeBase_congr {s t : State} (m : BaseMode) (hr : t.regs = s.regs) (hp : t.pc = s.pc) (hf : t.fp = s.fp)
    (hs : t.sp = s.sp) (hb : t.sb = s.sb) (hd : t.mod = s.mod) (hm : t.mem = s.mem) :
    placeBase m t = placeBase m s := by
  cases m with
  | memRel b d1 d2 => cases b <;> simp only [placeBase, State.relBase, hf, hs, hb, load32_congr hm]
  | space b d => cases b <;> simp only [placeBase, State.spaceBase, hf, hs, hb, hp]
  | _ => simp only [placeBase, reg_congr hr, hs, hd, load32_congr hm]

/-- The same of a general operand. -/
theorem place_congr {s t : State} (g : Gen) (hr : t.regs = s.regs) (hp : t.pc = s.pc) (hf : t.fp = s.fp)
    (hs : t.sp = s.sp) (hb : t.sb = s.sb) (hd : t.mod = s.mod) (hm : t.mem = s.mem) : place g t = place g s := by
  have h := fun m => placeBase_congr m hr hp hf hs hb hd hm
  cases g with
  | plain m => exact h m
  | scaled m x k =>
    have hi : ∀ l, indexBase l t = indexBase l s := fun l => by cases l <;> simp only [indexBase, reg_congr hr]
    simp only [place, h, hi, reg_congr hr]

/-- Reading a place looks at the registers and memory only. -/
theorem Loc.read_congr {s t : State} (l : Loc) (n : Nat) (hr : t.regs = s.regs) (hm : t.mem = s.mem) :
    l.read n t = l.read n s := by
  cases l <;> simp only [Loc.read, reg_congr hr, load_congr hm]

theorem Loc.readInt_congr {s t : State} (l : Loc) (len : IntLen) (hr : t.regs = s.regs) (hm : t.mem = s.mem) :
    l.readInt len t = l.readInt len s := by simp only [Loc.readInt, l.read_congr _ hr hm]

theorem effAddr_eq_ok {g : Gen} {s : State} {a : Dword} : effAddr g s = .ok a ↔ place g s = .ok (.mem a) := by
  simp only [effAddr, bind_eq_ok]
  constructor
  · rintro ⟨l, hl, h⟩
    cases l <;> simp_all
  · intro h
    exact ⟨_, h, rfl⟩

/-! ### Writing a place -/

/-- All writing a place can do. -/
theorem Loc.write_spec {l : Loc} {n : Nat} {v : Quad} {s t : State} (h : l.write n v s = .ok t) :
    t = { s with regs := t.regs, mem := t.mem, unflushed := t.unflushed } ∧
      (∀ r, l ≠ .reg r → t.reg r = s.reg r) ∧
      (∀ r, l = .reg r → t = s.setReg r (mergeLow n (s.reg r) (v.setWidth 32))) ∧
      (∀ a, l = .mem a → s.store n a v = .ok t) ∧
      ((∀ a, l ≠ .mem a) → t.mem = s.mem ∧ t.unflushed = s.unflushed) := by
  cases l with
  | reg q =>
    simp only [Loc.write, Except.ok.injEq] at h
    subst h
    refine ⟨?_, fun r hr => ?_, fun r hr => ?_, fun a ha => by simp at ha, fun _ => by simp⟩
    · rw [mem_setReg, unflushed_setReg]; exact setReg_frame s q _
    · exact reg_setReg_ne _ _ (fun e => hr (by rw [e]))
    · cases hr; rfl
  | mem a =>
    simp only [Loc.write] at h
    obtain ⟨h1, -⟩ := store_spec h
    refine ⟨?_, fun r _ => ?_, fun r hr => by simp at hr, fun b hb => ?_, fun hn => absurd rfl (hn a)⟩
    · rw [h1]
    · rw [h1]; rfl
    · cases hb; exact h
  | imm v => simp [Loc.write] at h

/-- Writing a place keeps memory's canonical form. -/
theorem wf_write_loc {l : Loc} {n : Nat} {v : Quad} {s t : State} (h : l.write n v s = .ok t)
    (hs : Memory.wf s.mem = true) : Memory.wf t.mem = true := by
  obtain ⟨-, -, -, h4, h5⟩ := l.write_spec h
  cases l with
  | mem a => exact wf_store (h4 a rfl) hs
  | reg r => rw [(h5 (by simp)).1]; exact hs
  | imm v => rw [(h5 (by simp)).1]; exact hs

/-- What an integer write does to a register: the bytes of its length are replaced, the rest kept. -/
theorem Loc.writeInt_reg (r : Reg) (len : IntLen) (v : IntVal len) (s : State) :
    (Loc.reg r).writeInt len v s = .ok (s.setReg r (mergeLow len.bytes (s.reg r) (v.setWidth 32))) := by
  simp only [Loc.writeInt, Loc.write, BitVec.setWidth_setWidth_of_le v (show 32 ≤ 64 by decide)]

/-- Reading back what was written to a place. -/
theorem Loc.readInt_writeInt {l : Loc} {len : IntLen} {v : IntVal len} {s t : State} (h : l.writeInt len v s = .ok t) :
    l.readInt len t = .ok v := by
  cases l with
  | reg r =>
    rw [Loc.writeInt_reg, Except.ok.injEq] at h
    subst h
    simp only [Loc.readInt, Loc.read, reg_setReg_same, ok_bind, pure_eq_ok, Except.ok.injEq]
    apply BitVec.eq_of_getLsbD_eq
    intro k hk
    have h1 : k < 32 := by cases len <;> simp only [lenBits] at hk <;> omega
    have h2 : k < 8 * len.bytes := by cases len <;> simp only [lenBits] at hk <;> simp only [IntLen.bytes] <;> omega
    rw [BitVec.getLsbD_setWidth, BitVec.getLsbD_setWidth, BitVec.getLsbD_and, getLsbD_mergeLow _ _ _ h1,
      getLsbD_lowMask, if_pos h2, BitVec.getLsbD_setWidth]
    simp [hk, h1, h2]
    omega
  | mem a =>
    simp only [Loc.writeInt, Loc.write] at h
    simp only [Loc.readInt, Loc.read]
    rw [load_store_same h (by cases len <;> decide)]
    simp only [ok_bind, pure_eq_ok, Except.ok.injEq]
    have h1 : 2 ^ (8 * len.bytes) = 2 ^ lenBits len := by cases len <;> rfl
    have h2 : 2 ^ lenBits len ≤ 2 ^ 64 := by cases len <;> decide
    have h3 : (v.setWidth 64).toNat = v.toNat := by
      rw [BitVec.toNat_setWidth]
      exact Nat.mod_eq_of_lt (lt_of_lt_of_le v.isLt h2)
    apply BitVec.eq_of_toNat_eq
    rw [BitVec.toNat_setWidth, BitVec.toNat_ofNat, h1, h3, Nat.mod_eq_of_lt v.isLt,
      Nat.mod_eq_of_lt (lt_of_lt_of_le v.isLt h2), Nat.mod_eq_of_lt v.isLt]
  | imm w => simp [Loc.writeInt, Loc.write] at h

/-! ### General operands -/

/-- A general operand is Top of stack itself, or its reads and writes go through its place. -/
theorem readGen_of_ne (g : Gen) (n : Nat) (s : State) (h : g ≠ .plain .tos) :
    readGen g n s = (place g s >>= fun l => l.read n s >>= fun v => .ok (v, s)) := by
  unfold readGen
  split
  · exact absurd rfl h
  · rfl

theorem readGen_tos (n : Nat) (s : State) :
    readGen (.plain .tos) n s = (s.load n s.sp >>= fun v => .ok (v, s.setSp (s.sp + BitVec.ofNat 32 n))) := rfl

theorem writeGen_of_ne (g : Gen) (n : Nat) (v : Quad) (s : State) (h : g ≠ .plain .tos) :
    writeGen g n v s = (place g s >>= fun l => l.write n v s) := by
  unfold writeGen
  split
  · exact absurd rfl h
  · rfl

theorem writeGen_tos (n : Nat) (v : Quad) (s : State) : writeGen (.plain .tos) n v s =
    (s.setSp (s.sp - BitVec.ofNat 32 n)).store n (s.sp - BitVec.ofNat 32 n) v := rfl

/-- All reading a general operand can do to the state: Top of stack pops, every other mode changes nothing. -/
theorem readGen_spec {g : Gen} {n : Nat} {s t : State} {v : Quad} (h : readGen g n s = .ok (v, t)) :
    t = if g = .plain .tos then s.setSp (s.sp + BitVec.ofNat 32 n) else s := by
  by_cases hg : g = .plain .tos
  · subst hg
    rw [readGen_tos] at h
    simp only [bind_eq_ok, Except.ok.injEq, Prod.mk.injEq] at h
    obtain ⟨w, -, -, rfl⟩ := h
    simp
  · rw [readGen_of_ne _ _ _ hg] at h
    simp only [bind_eq_ok, Except.ok.injEq, Prod.mk.injEq] at h
    obtain ⟨l, -, w, -, -, rfl⟩ := h
    simp [hg]

theorem readInt_spec {len : IntLen} {g : Gen} {s t : State} {v : IntVal len} (h : readInt len g s = .ok (v, t)) :
    t = if g = .plain .tos then s.setSp (s.sp + BitVec.ofNat 32 len.bytes) else s := by
  simp only [readInt, bind_eq_ok, pure_eq_ok, Except.ok.injEq, Prod.exists, Prod.mk.injEq] at h
  obtain ⟨w, u, hu, -, rfl⟩ := h
  exact readGen_spec hu

/-- What a read leaves unchanged: everything but the stack pointers. -/
theorem readInt_frame {len : IntLen} {g : Gen} {s t : State} {v : IntVal len} (h : readInt len g s = .ok (v, t)) :
    t = { s with sp0 := t.sp0, sp1 := t.sp1 } := by
  rw [readInt_spec h]
  split
  · unfold State.setSp; split <;> rfl
  · rfl

/-- All writing a general operand can do to the state: registers, memory, the unflushed bytes and, on Top of stack, the stack
pointers; nothing else. -/
theorem writeGen_spec {g : Gen} {n : Nat} {v : Quad} {s t : State} (h : writeGen g n v s = .ok t) :
    t = { s with regs := t.regs, sp0 := t.sp0, sp1 := t.sp1, mem := t.mem, unflushed := t.unflushed } ∧
      (∀ r, g ≠ .plain (.reg r) → t.reg r = s.reg r) ∧
      t.sp = (if g = .plain .tos then s.sp - BitVec.ofNat 32 n else s.sp) ∧
      (g ≠ .plain .tos → t.sp0 = s.sp0 ∧ t.sp1 = s.sp1) ∧
      ((∃ r, g = .plain (.reg r)) → t.mem = s.mem ∧ t.unflushed = s.unflushed) := by
  by_cases hg : g = .plain .tos
  · subst hg
    rw [writeGen_tos] at h
    obtain ⟨h1, -⟩ := store_spec h
    have e : ∀ r, t.reg r = s.reg r := fun r => by
      rw [h1]
      exact reg_setSp s _ r
    refine ⟨?_, fun r _ => e r, ?_, fun hn => absurd rfl hn, ?_⟩
    · rw [h1]
      unfold State.setSp
      split <;> rfl
    · rw [h1, if_pos rfl]
      exact sp_setSp s _
    · rintro ⟨r, hr⟩
      cases hr
  · rw [writeGen_of_ne _ _ _ _ hg, bind_eq_ok] at h
    obtain ⟨l, hl, h⟩ := h
    obtain ⟨h1, h2, -, -, h5⟩ := l.write_spec h
    refine ⟨by rw [h1], fun r hr => h2 r ?_, ?_, fun _ => by rw [h1]; exact ⟨rfl, rfl⟩, ?_⟩
    · rintro rfl
      cases g with
      | plain m =>
        cases m with
        | reg q =>
          simp only [place, placeBase, Except.ok.injEq, Loc.reg.injEq] at hl
          exact hr (by rw [hl])
        | _ => simp [place, placeBase, bind_eq_ok] at hl
      | scaled m x k => simp [place, bind_eq_ok] at hl
    · rw [if_neg hg, h1]; rfl
    · rintro ⟨r, rfl⟩
      simp only [place, placeBase, Except.ok.injEq] at hl
      exact h5 (fun a ha => by rw [← hl] at ha; cases ha)

/-- A write keeps memory's canonical form. -/
theorem wf_writeGen {g : Gen} {n : Nat} {v : Quad} {s t : State} (h : writeGen g n v s = .ok t)
    (hs : Memory.wf s.mem = true) : Memory.wf t.mem = true := by
  by_cases hg : g = .plain .tos
  · subst hg
    rw [writeGen_tos] at h
    exact wf_store h (by rw [mem_setSp]; exact hs)
  · rw [writeGen_of_ne _ _ _ _ hg, bind_eq_ok] at h
    obtain ⟨l, -, h⟩ := h
    exact wf_write_loc h hs

end Sys2Proof.Machine
end

