-- ==== Sys2Proof/Laws/Meanings.lean ====
section
/-! SUPPORT. What the operations shared by several meanings can do: the two-operand and one-operand skeletons, the bits, the
fields, the block and string loops, the register lists, the transfers to the floating-point unit. Each law is stated once
and holds in every state. -/

namespace Sys2Proof.Machine

/-- All a read-modify-write skeleton can do: the source is read, the destination placed and read in the state after it, the
result written in the state the function answers, and PC moved past the instruction. -/
theorem binaryOp_eq_ok {i : Instr} {len : IntLen} {src dst : Gen} {s t : State}
    {f : State → IntVal len → IntVal len → IntVal len × State} : binaryOp i len src dst s f = .ok t ↔
    ∃ a s1, readInt len src s = .ok (a, s1) ∧ ∃ l, place dst s1 = .ok l ∧ ∃ b, l.readInt len s1 = .ok b ∧
      ∃ u, l.writeInt len (f s1 a b).1 (f s1 a b).2 = .ok u ∧ u.advance i = t := by
  simp only [binaryOp, bind_eq_ok, pure_eq_ok, Except.ok.injEq, Prod.exists]

/-- All a read-and-write skeleton can do. -/
theorem unaryOp_eq_ok {i : Instr} {len : IntLen} {src dst : Gen} {s t : State} {f : State → IntVal len → IntVal len × State} :
    unaryOp i len src dst s f = .ok t ↔
    ∃ a s1, readInt len src s = .ok (a, s1) ∧ ∃ u, writeInt len dst (f s1 a).1 (f s1 a).2 = .ok u ∧ u.advance i = t := by
  simp only [unaryOp, bind_eq_ok, pure_eq_ok, Except.ok.injEq, Prod.exists]

/-- All an addition of a quick value in place can do. -/
theorem addTo_eq_ok {i : Instr} {len : IntLen} {a : IntVal len} {dst : Gen} {s t : State} : addTo i len a dst s = .ok t ↔
    ∃ l, place dst s = .ok l ∧ ∃ b, l.readInt len s = .ok b ∧
      ∃ u, l.writeInt len (addResult false s a b).1 (addResult false s a b).2 = .ok u ∧ u.advance i = t := by
  simp only [addTo, bind_eq_ok, pure_eq_ok, Except.ok.injEq]

/-- All a shift can do. -/
theorem shiftOp_eq_next {i : Instr} {len : IntLen} {cnt dst : Gen} {s t : State} {left right : IntVal len → Nat → IntVal len} :
    shiftOp i len cnt dst s left right = .next t ↔
    ∃ n s1, readInt .b cnt s = .ok (n, s1) ∧ ∃ l, place dst s1 = .ok l ∧ ∃ v, l.readInt len s1 = .ok v ∧
      ∃ u, l.writeInt len (shiftResult left right s1 n v).1 (shiftResult left right s1 n v).2 = .ok u ∧ u.advance i = t := by
  simp only [shiftOp, finish_eq_next, bind_eq_ok, pure_eq_ok, Except.ok.injEq, Prod.exists]

/-- All a change of a bit can do: F takes the old bit, the bit takes the new one. -/
theorem changeBitOp_eq_next {i : Instr} {len : IntLen} {off base : Gen} {s t : State} {f : Bool → Bool} :
    changeBitOp i len off base s f = .next t ↔
    ∃ o s1, readInt len off s = .ok (o, s1) ∧ ∃ l, placeBit base (o.signExtend 32) s1 = .ok l ∧ ∃ b, l.read s1 = .ok b ∧
      ∃ u, l.write (f b) (s1.setFlag .f b) = .ok u ∧ u.advance i = t := by
  simp only [changeBitOp, finish_eq_next, bind_eq_ok, pure_eq_ok, Except.ok.injEq, Prod.exists]

/-- All a test of a bit can do. -/
theorem testBitOp_eq_next {i : Instr} {len : IntLen} {off base : Gen} {s t : State} : testBitOp i len off base s = .next t ↔
    ∃ o s1, readInt len off s = .ok (o, s1) ∧ ∃ l, placeBit base (o.signExtend 32) s1 = .ok l ∧
      ∃ b, l.read s1 = .ok b ∧ (s1.setFlag .f b).advance i = t := by
  simp only [testBitOp, finish_eq_next, bind_eq_ok, pure_eq_ok, Except.ok.injEq, Prod.exists]

/-- All PSR's clearing and setting of bits can do. -/
theorem psrOp_eq_ok {i : Instr} {len : IntLen} {src : Gen} {s t : State} {f : Word16 → Word16 → Word16} :
    psrOp i len src s f = .ok t ↔
    ∃ v s1, readInt len src s = .ok (v, s1) ∧ (s1.setPsr (f s1.psr (v.setWidth 16))).advance i = t := by
  simp only [psrOp, bind_eq_ok, pure_eq_ok, Except.ok.injEq, Prod.exists]

/-- All a call through a descriptor can do. -/
theorem callExternal_eq_ok {i : Instr} {d : Dword} {s t : State} : callExternal i d s = .ok t ↔
    ∃ u, ({ s with freeIdx := s.freeIdx + 1 } : State).push32 ((Config.freeValue s.freeIdx).setWidth 16 ++ s.mod) = .ok u ∧
      ∃ v, u.push32 (s.returnAddress i) = .ok v ∧ v.enterModule d = .ok t := by
  simp only [callExternal, State.drawFree, bind_eq_ok]

/-! ### Loops -/

/-- All pushing registers can do: only SP, memory and the list of unflushed bytes change. -/
theorem pushRegs_spec {l : List Reg} {s t : State} (h : pushRegs l s = .ok t) :
    t = { s.setSp (s.sp - BitVec.ofNat 32 (4 * l.length)) with mem := t.mem, unflushed := t.unflushed } := by
  induction l generalizing s with
  | nil =>
    simp only [pushRegs, Except.ok.injEq] at h
    subst h
    unfold State.setSp State.sp
    split <;> simp
  | cons r l ih =>
    obtain ⟨u, h1, h2⟩ := bind_eq_ok.1 h
    have e := ih h2
    have hsp := sp_push32 h1
    have hps : u.flag .s = s.flag .s := by rw [State.flag, psr_push32 h1]; rfl
    have h3 := (push32_spec h1).1
    have ea : s.sp - 4#32 - BitVec.ofNat 32 (4 * l.length) = s.sp - BitVec.ofNat 32 (4 * (r :: l).length) := by
      rw [List.length_cons, show 4 * (l.length + 1) = 4 + 4 * l.length by omega, BitVec.ofNat_add, BitVec.sub_sub]
    rw [hsp, ea] at e
    rw [e]
    unfold State.setSp at h3 ⊢
    rw [hps]
    split
    · next hs => rw [if_pos hs] at h3; rw [h3]
    · next hs => rw [if_neg hs] at h3; rw [h3]

/-- All copying a block can do: only memory and the list of unflushed bytes change. -/
theorem copyBlock_spec {bytes n : Nat} {a b : Dword} {s t : State} (h : copyBlock bytes n a b s = .ok t) :
    t = { s with mem := t.mem, unflushed := t.unflushed } := by
  induction n generalizing a b s with
  | zero =>
    simp only [copyBlock, Except.ok.injEq] at h
    rw [h]
  | succ n ih =>
    simp only [copyBlock, bind_eq_ok] at h
    obtain ⟨v, -, u, h2, h3⟩ := h
    have e := ih h3
    rw [e, (store_spec h2).1]

/-- All comparing blocks can do: only PSR changes. -/
theorem compareBlock_spec {len : IntLen} {n : Nat} {a b : Dword} {s t : State} (h : compareBlock len n a b s = .ok t) :
    t = { s with psr := t.psr } := by
  induction n generalizing a b s with
  | zero =>
    simp only [compareBlock, Except.ok.injEq] at h
    rw [h]
  | succ n ih =>
    simp only [compareBlock, bind_eq_ok] at h
    obtain ⟨x, -, y, -, h3⟩ := h
    split at h3
    · rw [ih h3]; rfl
    · cases h3; rfl

/-- All reading an element of a string can do: an element longer than a byte draws an open value with option T. -/
theorem stringElement_spec {len : IntLen} {o : StringOpts} {v : IntVal len} {s t : State}
    (h : stringElement len o s = .ok (v, t)) :
    t = { s with freeIdx := t.freeIdx } ∧ (o.translate = false ∨ len = .b → t = s) := by
  simp only [stringElement, bind_eq_ok] at h
  obtain ⟨x, -, h⟩ := h
  split at h
  · next ho =>
    cases len
    · simp only [translateElement, bind_eq_ok, pure_eq_ok, Except.ok.injEq, Prod.mk.injEq] at h
      obtain ⟨-, -, -, rfl⟩ := h
      exact ⟨rfl, fun _ => rfl⟩
    all_goals
      cases h
      exact ⟨rfl, fun hn => by simp [ho] at hn⟩
  · cases h
    exact ⟨rfl, fun _ => rfl⟩

/-- All moving a string can do: only R0, R1, R2, PSR, memory, the list of unflushed bytes and the count of open values
change. -/
theorem moveString_spec {len : IntLen} {o : StringOpts} {n : Nat} {s t : State} (h : moveString len o n s = .ok t) :
    t = { s with regs := { s.regs with r0 := t.regs.r0, r1 := t.regs.r1, r2 := t.regs.r2 }, psr := t.psr, mem := t.mem,
                 unflushed := t.unflushed, freeIdx := t.freeIdx } := by
  induction n generalizing s with
  | zero => cases h; rfl
  | succ n ih =>
    simp only [moveString, bind_eq_ok, Prod.exists] at h
    obtain ⟨v, u, hv, h⟩ := h
    obtain ⟨hu, -⟩ := stringElement_spec hv
    split at h
    · cases h
      rw [hu]; rfl
    · simp only [bind_eq_ok] at h
      obtain ⟨w, hw, h⟩ := h
      rw [ih h, (store_spec hw).1, hu]; rfl

/-- All comparing strings can do: only R0, R1, R2, PSR and the count of open values change. -/
theorem compareString_spec {len : IntLen} {o : StringOpts} {n : Nat} {s t : State} (h : compareString len o n s = .ok t) :
    t = { s with regs := { s.regs with r0 := t.regs.r0, r1 := t.regs.r1, r2 := t.regs.r2 }, psr := t.psr,
                 freeIdx := t.freeIdx } := by
  induction n generalizing s with
  | zero => cases h; rfl
  | succ n ih =>
    simp only [compareString, bind_eq_ok, Prod.exists] at h
    obtain ⟨v, u, hv, h⟩ := h
    obtain ⟨hu, -⟩ := stringElement_spec hv
    split at h
    · cases h
      rw [hu]; rfl
    · simp only [bind_eq_ok] at h
      obtain ⟨y, -, h⟩ := h
      split at h
      · rw [ih h, hu]; rfl
      · cases h
        rw [hu]; rfl

/-- All skipping through a string can do: only R0, R1, PSR and the count of open values change. -/
theorem skipString_spec {len : IntLen} {o : StringOpts} {n : Nat} {s t : State} (h : skipString len o n s = .ok t) :
    t = { s with regs := { s.regs with r0 := t.regs.r0, r1 := t.regs.r1 }, psr := t.psr, freeIdx := t.freeIdx } := by
  induction n generalizing s with
  | zero => cases h; rfl
  | succ n ih =>
    simp only [skipString, bind_eq_ok, Prod.exists] at h
    obtain ⟨v, u, hv, h⟩ := h
    obtain ⟨hu, -⟩ := stringElement_spec hv
    split at h
    · cases h
      rw [hu]; rfl
    · rw [ih h, hu]; rfl

/-! ### The graphics instructions -/

/-- What the BB series wants before it starts. -/
theorem bbReady_eq_ok {s : State} {u : Unit} : bbReady s = .ok u ↔
    s.shiftValue ≤ 15 ∧ s.flag .l = decide (s.shiftValue ≠ 0) ∧ (s.reg .r4).extractLsb' 16 16 = 0#16 ∧
      (s.reg .r5).extractLsb' 16 16 = 0#16 ∧ s.flag .j = false ∧ s.flag .k = false ∧ s.reg .r3 ≠ 0#32 ∧
      ∃ w, s.load16 s.sp = .ok w ∧ w ≠ 0#16 := by
  simp only [bbReady, shiftReady, bind_eq_ok, require_eq_ok, decide_eq_true_eq, beq_iff_eq, Bool.and_eq_true, bne_iff_ne,
    Bool.not_eq_true']
  simp only [exists_const, and_assoc]

/-- All one word of the BB series can do: only BBSTOD's mask, memory and the list of unflushed bytes change. -/
theorem bbWord_spec {fn : BbFn} {inv : Bool} {pos : WordPos} {s t : State} (h : bbWord fn inv pos s = .ok t) :
    t = { s with bbMask := t.bbMask, mem := t.mem, unflushed := t.unflushed } := by
  simp only [bbWord, bind_eq_ok] at h
  obtain ⟨w, -, h⟩ := h
  split at h
  · simp only [bind_eq_ok] at h
    obtain ⟨d, -, h⟩ := h
    rw [(store_spec h).1]
  · simp only [bind_eq_ok] at h
    obtain ⟨d, -, h⟩ := h
    rw [(store_spec h).1]
    unfold keepMask
    split <;> rfl

/-! ### The floating-point unit -/

@[simp] theorem askFpu_state (op : Config.FpuOp) (m n : Nat) (args : List Quad) (s : State) :
    (askFpu op m n args s).2 = { s with fsr := (Config.fpuAnswer op m n s.fsr args).fsr } := rfl

/-- With the unit enabled a floating-point instruction has its effect. -/
theorem withFpu_enabled {s : State} (r : Res State) (h : s.cfg.getLsbD 1 = true) : withFpu s r = finish r := by
  simp only [withFpu, h, if_true]

/-- With the unit disabled it takes the undefined instruction trap. -/
theorem withFpu_disabled {s : State} (r : Res State) (h : s.cfg.getLsbD 1 = false) :
    withFpu s r = finish (takeException .und s.pc s) := by
  simp only [withFpu, h, Bool.false_eq_true, if_false]

end Sys2Proof.Machine
end

