-- ==== Sys2Proof/Laws/PerInstr.lean ====
section
/-! SUPPORT. The per-instruction family Shape: how many bytes and operands an instruction's encoding is made of. -/

namespace Sys2Proof.Laws

/-- The basic instruction has 1 to 3 bytes, and with at most nine bytes for each general operand (an index byte and eight
bytes of extension) the whole encoding is within the longest instruction. -/
def Shape.Statement (i : Instr) : Prop :=
  1 ≤ i.basic.length ∧ i.basic.length ≤ 3 ∧ i.basic.length + 9 * i.operands.length + i.tail.length ≤ maxInstrBytes

/-- The three bounds from one evaluation. -/
theorem shape_of {i : Instr} (h : (Nat.ble 1 i.basic.length && Nat.ble i.basic.length 3 &&
    Nat.ble (i.basic.length + 9 * i.operands.length + i.tail.length) maxInstrBytes) = true) : Shape.Statement i := by
  simp only [Bool.and_eq_true] at h
  exact ⟨Nat.le_of_ble_eq_true h.1.1, Nat.le_of_ble_eq_true h.1.2, Nat.le_of_ble_eq_true h.2⟩

theorem Shape.bbor (da : Bool) (inv : Bool) : Shape.Statement (.bbor da inv) := shape_of rfl
theorem Shape.bbfor : Shape.Statement .bbfor := shape_of rfl
theorem Shape.bbxor (da : Bool) (inv : Bool) : Shape.Statement (.bbxor da inv) := shape_of rfl
theorem Shape.bband (da : Bool) (inv : Bool) : Shape.Statement (.bband da inv) := shape_of rfl
theorem Shape.bbstod (da : Bool) (inv : Bool) : Shape.Statement (.bbstod da inv) := shape_of rfl
theorem Shape.extblt : Shape.Statement .extblt := shape_of rfl
theorem Shape.movmpb : Shape.Statement .movmpb := shape_of rfl
theorem Shape.movmpw : Shape.Statement .movmpw := shape_of rfl
theorem Shape.movmpd : Shape.Statement .movmpd := shape_of rfl
theorem Shape.bitwt : Shape.Statement .bitwt := shape_of rfl
theorem Shape.tbits (ones : Bool) : Shape.Statement (.tbits ones) := shape_of rfl
theorem Shape.sbitps : Shape.Statement .sbitps := shape_of rfl
theorem Shape.sbits : Shape.Statement .sbits := shape_of rfl
theorem Shape.br (disp : Disp) : Shape.Statement (.br disp) := by cases disp <;> exact shape_of rfl
theorem Shape.bcond (cond : Cond) (disp : Disp) : Shape.Statement (.bcond cond disp) := by cases disp <;> exact shape_of rfl
theorem Shape.bsr (disp : Disp) : Shape.Statement (.bsr disp) := by cases disp <;> exact shape_of rfl
theorem Shape.ret (disp : Disp) : Shape.Statement (.ret disp) := by cases disp <;> exact shape_of rfl
theorem Shape.cxp (disp : Disp) : Shape.Statement (.cxp disp) := by cases disp <;> exact shape_of rfl
theorem Shape.rxp (disp : Disp) : Shape.Statement (.rxp disp) := by cases disp <;> exact shape_of rfl
theorem Shape.rett (disp : Disp) : Shape.Statement (.rett disp) := by cases disp <;> exact shape_of rfl
theorem Shape.reti : Shape.Statement .reti := shape_of rfl
theorem Shape.save (list : Byte) : Shape.Statement (.save list) := shape_of rfl
theorem Shape.restore (list : Byte) : Shape.Statement (.restore list) := shape_of rfl
theorem Shape.enter (list : Byte) (disp : Disp) : Shape.Statement (.enter list disp) := by cases disp <;> exact shape_of rfl
theorem Shape.exit (list : Byte) : Shape.Statement (.exit list) := shape_of rfl
theorem Shape.nop : Shape.Statement .nop := shape_of rfl
theorem Shape.wait : Shape.Statement .wait := shape_of rfl
theorem Shape.dia : Shape.Statement .dia := shape_of rfl
theorem Shape.flag : Shape.Statement .flag := shape_of rfl
theorem Shape.svc : Shape.Statement .svc := shape_of rfl
theorem Shape.bpt : Shape.Statement .bpt := shape_of rfl
theorem Shape.addqb (q : Quick) (dst : Gen) : Shape.Statement (.addqb q dst) := shape_of rfl
theorem Shape.addqw (q : Quick) (dst : Gen) : Shape.Statement (.addqw q dst) := shape_of rfl
theorem Shape.addqd (q : Quick) (dst : Gen) : Shape.Statement (.addqd q dst) := shape_of rfl
theorem Shape.cmpqb (q : Quick) (src : Gen) : Shape.Statement (.cmpqb q src) := shape_of rfl
theorem Shape.cmpqw (q : Quick) (src : Gen) : Shape.Statement (.cmpqw q src) := shape_of rfl
theorem Shape.cmpqd (q : Quick) (src : Gen) : Shape.Statement (.cmpqd q src) := shape_of rfl
theorem Shape.sprb (areg : AReg) (dst : Gen) : Shape.Statement (.sprb areg dst) := shape_of rfl
theorem Shape.sprw (areg : AReg) (dst : Gen) : Shape.Statement (.sprw areg dst) := shape_of rfl
theorem Shape.sprd (areg : AReg) (dst : Gen) : Shape.Statement (.sprd areg dst) := shape_of rfl
theorem Shape.scondb (cond : Cond) (dst : Gen) : Shape.Statement (.scondb cond dst) := shape_of rfl
theorem Shape.scondw (cond : Cond) (dst : Gen) : Shape.Statement (.scondw cond dst) := shape_of rfl
theorem Shape.scondd (cond : Cond) (dst : Gen) : Shape.Statement (.scondd cond dst) := shape_of rfl
theorem Shape.acbb (q : Quick) (idx : Gen) (disp : Disp) : Shape.Statement (.acbb q idx disp) := by cases disp <;> exact shape_of rfl
theorem Shape.acbw (q : Quick) (idx : Gen) (disp : Disp) : Shape.Statement (.acbw q idx disp) := by cases disp <;> exact shape_of rfl
theorem Shape.acbd (q : Quick) (idx : Gen) (disp : Disp) : Shape.Statement (.acbd q idx disp) := by cases disp <;> exact shape_of rfl
theorem Shape.movqb (q : Quick) (dst : Gen) : Shape.Statement (.movqb q dst) := shape_of rfl
theorem Shape.movqw (q : Quick) (dst : Gen) : Shape.Statement (.movqw q dst) := shape_of rfl
theorem Shape.movqd (q : Quick) (dst : Gen) : Shape.Statement (.movqd q dst) := shape_of rfl
theorem Shape.lprb (areg : AReg) (src : Gen) : Shape.Statement (.lprb areg src) := shape_of rfl
theorem Shape.lprw (areg : AReg) (src : Gen) : Shape.Statement (.lprw areg src) := shape_of rfl
theorem Shape.lprd (areg : AReg) (src : Gen) : Shape.Statement (.lprd areg src) := shape_of rfl
theorem Shape.cxpd (desc : Gen) : Shape.Statement (.cxpd desc) := shape_of rfl
theorem Shape.bicpsrb (src : Gen) : Shape.Statement (.bicpsrb src) := shape_of rfl
theorem Shape.bicpsrw (src : Gen) : Shape.Statement (.bicpsrw src) := shape_of rfl
theorem Shape.bicpsrd (src : Gen) : Shape.Statement (.bicpsrd src) := shape_of rfl
theorem Shape.jump (dst : Gen) : Shape.Statement (.jump dst) := shape_of rfl
theorem Shape.bispsrb (src : Gen) : Shape.Statement (.bispsrb src) := shape_of rfl
theorem Shape.bispsrw (src : Gen) : Shape.Statement (.bispsrw src) := shape_of rfl
theorem Shape.bispsrd (src : Gen) : Shape.Statement (.bispsrd src) := shape_of rfl
theorem Shape.adjspb (src : Gen) : Shape.Statement (.adjspb src) := shape_of rfl
theorem Shape.adjspw (src : Gen) : Shape.Statement (.adjspw src) := shape_of rfl
theorem Shape.adjspd (src : Gen) : Shape.Statement (.adjspd src) := shape_of rfl
theorem Shape.jsr (dst : Gen) : Shape.Statement (.jsr dst) := shape_of rfl
theorem Shape.caseb (src : Gen) : Shape.Statement (.caseb src) := shape_of rfl
theorem Shape.casew (src : Gen) : Shape.Statement (.casew src) := shape_of rfl
theorem Shape.cased (src : Gen) : Shape.Statement (.cased src) := shape_of rfl
theorem Shape.addb (src : Gen) (dst : Gen) : Shape.Statement (.addb src dst) := shape_of rfl
theorem Shape.addw (src : Gen) (dst : Gen) : Shape.Statement (.addw src dst) := shape_of rfl
theorem Shape.addd (src : Gen) (dst : Gen) : Shape.Statement (.addd src dst) := shape_of rfl
theorem Shape.cmpb (src1 : Gen) (src2 : Gen) : Shape.Statement (.cmpb src1 src2) := shape_of rfl
theorem Shape.cmpw (src1 : Gen) (src2 : Gen) : Shape.Statement (.cmpw src1 src2) := shape_of rfl
theorem Shape.cmpd (src1 : Gen) (src2 : Gen) : Shape.Statement (.cmpd src1 src2) := shape_of rfl
theorem Shape.bicb (src : Gen) (dst : Gen) : Shape.Statement (.bicb src dst) := shape_of rfl
theorem Shape.bicw (src : Gen) (dst : Gen) : Shape.Statement (.bicw src dst) := shape_of rfl
theorem Shape.bicd (src : Gen) (dst : Gen) : Shape.Statement (.bicd src dst) := shape_of rfl
theorem Shape.addcb (src : Gen) (dst : Gen) : Shape.Statement (.addcb src dst) := shape_of rfl
theorem Shape.addcw (src : Gen) (dst : Gen) : Shape.Statement (.addcw src dst) := shape_of rfl
theorem Shape.addcd (src : Gen) (dst : Gen) : Shape.Statement (.addcd src dst) := shape_of rfl
theorem Shape.movb (src : Gen) (dst : Gen) : Shape.Statement (.movb src dst) := shape_of rfl
theorem Shape.movw (src : Gen) (dst : Gen) : Shape.Statement (.movw src dst) := shape_of rfl
theorem Shape.movd (src : Gen) (dst : Gen) : Shape.Statement (.movd src dst) := shape_of rfl
theorem Shape.orb (src : Gen) (dst : Gen) : Shape.Statement (.orb src dst) := shape_of rfl
theorem Shape.orw (src : Gen) (dst : Gen) : Shape.Statement (.orw src dst) := shape_of rfl
theorem Shape.ord (src : Gen) (dst : Gen) : Shape.Statement (.ord src dst) := shape_of rfl
theorem Shape.subb (src : Gen) (dst : Gen) : Shape.Statement (.subb src dst) := shape_of rfl
theorem Shape.subw (src : Gen) (dst : Gen) : Shape.Statement (.subw src dst) := shape_of rfl
theorem Shape.subd (src : Gen) (dst : Gen) : Shape.Statement (.subd src dst) := shape_of rfl
theorem Shape.addr (src : Gen) (dst : Gen) : Shape.Statement (.addr src dst) := shape_of rfl
theorem Shape.andb (src : Gen) (dst : Gen) : Shape.Statement (.andb src dst) := shape_of rfl
theorem Shape.andw (src : Gen) (dst : Gen) : Shape.Statement (.andw src dst) := shape_of rfl
theorem Shape.andd (src : Gen) (dst : Gen) : Shape.Statement (.andd src dst) := shape_of rfl
theorem Shape.subcb (src : Gen) (dst : Gen) : Shape.Statement (.subcb src dst) := shape_of rfl
theorem Shape.subcw (src : Gen) (dst : Gen) : Shape.Statement (.subcw src dst) := shape_of rfl
theorem Shape.subcd (src : Gen) (dst : Gen) : Shape.Statement (.subcd src dst) := shape_of rfl
theorem Shape.tbitb (off : Gen) (base : Gen) : Shape.Statement (.tbitb off base) := shape_of rfl
theorem Shape.tbitw (off : Gen) (base : Gen) : Shape.Statement (.tbitw off base) := shape_of rfl
theorem Shape.tbitd (off : Gen) (base : Gen) : Shape.Statement (.tbitd off base) := shape_of rfl
theorem Shape.xorb (src : Gen) (dst : Gen) : Shape.Statement (.xorb src dst) := shape_of rfl
theorem Shape.xorw (src : Gen) (dst : Gen) : Shape.Statement (.xorw src dst) := shape_of rfl
theorem Shape.xord (src : Gen) (dst : Gen) : Shape.Statement (.xord src dst) := shape_of rfl
theorem Shape.movsi (len : IntLen) (back : Bool) (stop : StopRule) : Shape.Statement (.movsi len back stop) := shape_of rfl
theorem Shape.movsti (step : StringStep) (stop : StopRule) : Shape.Statement (.movsti step stop) := shape_of rfl
theorem Shape.cmpsi (len : IntLen) (back : Bool) (stop : StopRule) : Shape.Statement (.cmpsi len back stop) := shape_of rfl
theorem Shape.cmpsti (step : StringStep) (stop : StopRule) : Shape.Statement (.cmpsti step stop) := shape_of rfl
theorem Shape.setcfg (opts : BitVec 4) : Shape.Statement (.setcfg opts) := shape_of rfl
theorem Shape.skpsi (len : IntLen) (back : Bool) (stop : StopRule) : Shape.Statement (.skpsi len back stop) := shape_of rfl
theorem Shape.skpsti (step : StringStep) (stop : StopRule) : Shape.Statement (.skpsti step stop) := shape_of rfl
theorem Shape.roti (len : IntLen) (cnt : Gen) (dst : Gen) : Shape.Statement (.roti len cnt dst) := shape_of rfl
theorem Shape.ashi (len : IntLen) (cnt : Gen) (dst : Gen) : Shape.Statement (.ashi len cnt dst) := shape_of rfl
theorem Shape.cbiti (len : IntLen) (off : Gen) (base : Gen) : Shape.Statement (.cbiti len off base) := shape_of rfl
theorem Shape.cbitii (len : IntLen) (off : Gen) (base : Gen) : Shape.Statement (.cbitii len off base) := shape_of rfl
theorem Shape.lshi (len : IntLen) (cnt : Gen) (dst : Gen) : Shape.Statement (.lshi len cnt dst) := shape_of rfl
theorem Shape.sbiti (len : IntLen) (off : Gen) (base : Gen) : Shape.Statement (.sbiti len off base) := shape_of rfl
theorem Shape.sbitii (len : IntLen) (off : Gen) (base : Gen) : Shape.Statement (.sbitii len off base) := shape_of rfl
theorem Shape.negi (len : IntLen) (src : Gen) (dst : Gen) : Shape.Statement (.negi len src dst) := shape_of rfl
theorem Shape.noti (len : IntLen) (src : Gen) (dst : Gen) : Shape.Statement (.noti len src dst) := shape_of rfl
theorem Shape.subpi (len : IntLen) (src : Gen) (dst : Gen) : Shape.Statement (.subpi len src dst) := shape_of rfl
theorem Shape.absi (len : IntLen) (src : Gen) (dst : Gen) : Shape.Statement (.absi len src dst) := shape_of rfl
theorem Shape.comi (len : IntLen) (src : Gen) (dst : Gen) : Shape.Statement (.comi len src dst) := shape_of rfl
theorem Shape.ibiti (len : IntLen) (off : Gen) (base : Gen) : Shape.Statement (.ibiti len off base) := shape_of rfl
theorem Shape.addpi (len : IntLen) (src : Gen) (dst : Gen) : Shape.Statement (.addpi len src dst) := shape_of rfl
theorem Shape.movmi (len : IntLen) (src : Gen) (dst : Gen) (disp : Disp) : Shape.Statement (.movmi len src dst disp) := by cases disp <;> exact shape_of rfl
theorem Shape.cmpmi (len : IntLen) (src1 : Gen) (src2 : Gen) (disp : Disp) : Shape.Statement (.cmpmi len src1 src2 disp) := by cases disp <;> exact shape_of rfl
theorem Shape.inssi (len : IntLen) (src : Gen) (base : Gen) (off : BitVec 3) (size : BitVec 5) : Shape.Statement (.inssi len src base off size) := shape_of rfl
theorem Shape.extsi (len : IntLen) (base : Gen) (dst : Gen) (off : BitVec 3) (size : BitVec 5) : Shape.Statement (.extsi len base dst off size) := shape_of rfl
theorem Shape.muli (len : IntLen) (src : Gen) (dst : Gen) : Shape.Statement (.muli len src dst) := shape_of rfl
theorem Shape.meii (len : IntLen) (src : Gen) (dst : Gen) : Shape.Statement (.meii len src dst) := shape_of rfl
theorem Shape.deii (len : IntLen) (src : Gen) (dst : Gen) : Shape.Statement (.deii len src dst) := shape_of rfl
theorem Shape.quoi (len : IntLen) (src : Gen) (dst : Gen) : Shape.Statement (.quoi len src dst) := shape_of rfl
theorem Shape.remi (len : IntLen) (src : Gen) (dst : Gen) : Shape.Statement (.remi len src dst) := shape_of rfl
theorem Shape.modi (len : IntLen) (src : Gen) (dst : Gen) : Shape.Statement (.modi len src dst) := shape_of rfl
theorem Shape.divi (len : IntLen) (src : Gen) (dst : Gen) : Shape.Statement (.divi len src dst) := shape_of rfl
theorem Shape.movxbw (src : Gen) (dst : Gen) : Shape.Statement (.movxbw src dst) := shape_of rfl
theorem Shape.movzbw (src : Gen) (dst : Gen) : Shape.Statement (.movzbw src dst) := shape_of rfl
theorem Shape.movzbd (src : Gen) (dst : Gen) : Shape.Statement (.movzbd src dst) := shape_of rfl
theorem Shape.movzwd (src : Gen) (dst : Gen) : Shape.Statement (.movzwd src dst) := shape_of rfl
theorem Shape.movxbd (src : Gen) (dst : Gen) : Shape.Statement (.movxbd src dst) := shape_of rfl
theorem Shape.movxwd (src : Gen) (dst : Gen) : Shape.Statement (.movxwd src dst) := shape_of rfl
theorem Shape.exti (len : IntLen) (off : Reg) (base : Gen) (dst : Gen) (disp : Disp) : Shape.Statement (.exti len off base dst disp) := by cases disp <;> exact shape_of rfl
theorem Shape.cvtp (field : RegLen) (base : Gen) (dst : Gen) : Shape.Statement (.cvtp field base dst) := shape_of rfl
theorem Shape.insi (len : IntLen) (off : Reg) (src : Gen) (base : Gen) (disp : Disp) : Shape.Statement (.insi len off src base disp) := by cases disp <;> exact shape_of rfl
theorem Shape.checki (len : IntLen) (dst : Reg) (bounds : Gen) (src : Gen) : Shape.Statement (.checki len dst bounds src) := shape_of rfl
theorem Shape.indexi (len : IntLen) (accum : Reg) (size : Gen) (idx : Gen) : Shape.Statement (.indexi len accum size idx) := shape_of rfl
theorem Shape.ffsi (field : RegLen) (base : Gen) (off : Gen) : Shape.Statement (.ffsi field base off) := shape_of rfl
theorem Shape.movif (fl : FLen) (len : IntLen) (src : Gen) (dst : Gen) : Shape.Statement (.movif fl len src dst) := shape_of rfl
theorem Shape.lfsr (fl : FLen) (len : IntLen) (src : Gen) (spare : BitVec 5) : Shape.Statement (.lfsr fl len src spare) := shape_of rfl
theorem Shape.movlf (fl : FLen) (len : IntLen) (src : Gen) (dst : Gen) : Shape.Statement (.movlf fl len src dst) := shape_of rfl
theorem Shape.movfl (fl : FLen) (len : IntLen) (src : Gen) (dst : Gen) : Shape.Statement (.movfl fl len src dst) := shape_of rfl
theorem Shape.roundfi (fl : FLen) (len : IntLen) (src : Gen) (dst : Gen) : Shape.Statement (.roundfi fl len src dst) := shape_of rfl
theorem Shape.truncfi (fl : FLen) (len : IntLen) (src : Gen) (dst : Gen) : Shape.Statement (.truncfi fl len src dst) := shape_of rfl
theorem Shape.sfsr (fl : FLen) (len : IntLen) (spare : BitVec 5) (dst : Gen) : Shape.Statement (.sfsr fl len spare dst) := shape_of rfl
theorem Shape.floorfi (fl : FLen) (len : IntLen) (src : Gen) (dst : Gen) : Shape.Statement (.floorfi fl len src dst) := shape_of rfl
theorem Shape.addf (fl : FLen) (src : Gen) (dst : Gen) : Shape.Statement (.addf fl src dst) := shape_of rfl
theorem Shape.movf (fl : FLen) (src : Gen) (dst : Gen) : Shape.Statement (.movf fl src dst) := shape_of rfl
theorem Shape.cmpf (fl : FLen) (src1 : Gen) (src2 : Gen) : Shape.Statement (.cmpf fl src1 src2) := shape_of rfl
theorem Shape.subf (fl : FLen) (src : Gen) (dst : Gen) : Shape.Statement (.subf fl src dst) := shape_of rfl
theorem Shape.negf (fl : FLen) (src : Gen) (dst : Gen) : Shape.Statement (.negf fl src dst) := shape_of rfl
theorem Shape.divf (fl : FLen) (src : Gen) (dst : Gen) : Shape.Statement (.divf fl src dst) := shape_of rfl
theorem Shape.mulf (fl : FLen) (src : Gen) (dst : Gen) : Shape.Statement (.mulf fl src dst) := shape_of rfl
theorem Shape.absf (fl : FLen) (src : Gen) (dst : Gen) : Shape.Statement (.absf fl src dst) := shape_of rfl
theorem Shape.polyf (fl : FLen) (src1 : Gen) (src2 : Gen) : Shape.Statement (.polyf fl src1 src2) := shape_of rfl
theorem Shape.dotf (fl : FLen) (src1 : Gen) (src2 : Gen) : Shape.Statement (.dotf fl src1 src2) := shape_of rfl
theorem Shape.scalbf (fl : FLen) (src : Gen) (dst : Gen) : Shape.Statement (.scalbf fl src dst) := shape_of rfl
theorem Shape.logbf (fl : FLen) (src : Gen) (dst : Gen) : Shape.Statement (.logbf fl src dst) := shape_of rfl
theorem Shape.rdval (word : Word16) : Shape.Statement (.rdval word) := shape_of rfl
theorem Shape.wrval (word : Word16) : Shape.Statement (.wrval word) := shape_of rfl
theorem Shape.lmr (word : Word16) : Shape.Statement (.lmr word) := shape_of rfl
theorem Shape.smr (word : Word16) : Shape.Statement (.smr word) := shape_of rfl
theorem Shape.movsui (word : Word16) : Shape.Statement (.movsui word) := shape_of rfl
theorem Shape.movusi (word : Word16) : Shape.Statement (.movusi word) := shape_of rfl
theorem Shape.catst0 (word : Word16) : Shape.Statement (.catst0 word) := shape_of rfl
theorem Shape.catst1 (word : Word16) : Shape.Statement (.catst1 word) := shape_of rfl
theorem Shape.lcr (word : Word16) : Shape.Statement (.lcr word) := shape_of rfl
theorem Shape.scr (word : Word16) : Shape.Statement (.scr word) := shape_of rfl
theorem Shape.ccv0ci (word : Word16) : Shape.Statement (.ccv0ci word) := shape_of rfl
theorem Shape.ccv1ci (word : Word16) : Shape.Statement (.ccv1ci word) := shape_of rfl
theorem Shape.ccv2ci (word : Word16) : Shape.Statement (.ccv2ci word) := shape_of rfl
theorem Shape.ccv3ci (word : Word16) : Shape.Statement (.ccv3ci word) := shape_of rfl
theorem Shape.ccv4dq (word : Word16) : Shape.Statement (.ccv4dq word) := shape_of rfl
theorem Shape.ccv5qd (word : Word16) : Shape.Statement (.ccv5qd word) := shape_of rfl
theorem Shape.lcsr (word : Word16) : Shape.Statement (.lcsr word) := shape_of rfl
theorem Shape.scsr (word : Word16) : Shape.Statement (.scsr word) := shape_of rfl
theorem Shape.ccal0c (word : Word16) : Shape.Statement (.ccal0c word) := shape_of rfl
theorem Shape.ccal1c (word : Word16) : Shape.Statement (.ccal1c word) := shape_of rfl
theorem Shape.ccal2c (word : Word16) : Shape.Statement (.ccal2c word) := shape_of rfl
theorem Shape.ccal3c (word : Word16) : Shape.Statement (.ccal3c word) := shape_of rfl
theorem Shape.cmov0c (word : Word16) : Shape.Statement (.cmov0c word) := shape_of rfl
theorem Shape.cmov1c (word : Word16) : Shape.Statement (.cmov1c word) := shape_of rfl
theorem Shape.cmov2c (word : Word16) : Shape.Statement (.cmov2c word) := shape_of rfl
theorem Shape.cmov3c (word : Word16) : Shape.Statement (.cmov3c word) := shape_of rfl
theorem Shape.ccmp0c (word : Word16) : Shape.Statement (.ccmp0c word) := shape_of rfl
theorem Shape.ccmp1c (word : Word16) : Shape.Statement (.ccmp1c word) := shape_of rfl

end Sys2Proof.Laws
end

