-- ==== Sys2Proof/Tests/Slice0.lean ====
section
/-! SUPPORT. Tests: the checks of WellFormed refuse ill-formed terms; words written out from the opcode table and R80 to R97
decode to their instructions; single steps against spec/95_test_vectors.md and against hand calculation from the rules;
and, for every statement with hypotheses, states and operands that meet them. -/

namespace Sys2Proof.Tests

set_option Elab.async false

open Sys2Proof.Machine Sys2Proof.Claims

/-! ### WellFormed -/

/-- A register operand. -/
def r (x : Reg) : Gen := .plain (.reg x)

/-- An immediate operand. -/
def im (v : Quad) : Gen := .plain (.imm v)

/-- The reserved displacement (R95). -/
def reservedDisp : Disp := .four 0x20000000#30

theorem test_wf_accepts : (Instr.addd (im 0xFFFFFFFF#64) (r .r1)).wf = true ∧ (Instr.bcond .eq (.four 0x1FFFFFFF#30)).wf = true ∧
    (Instr.deii .w (r .r1) (r .r2)).wf = true ∧ (Instr.movmi .b (.plain .tos) (.plain .tos) (.one 0#7)).wf = true := by decide

theorem test_wf_reserved_displacement : (Instr.br reservedDisp).wf = false ∧ (Instr.movb (.plain (.absolute reservedDisp)) (r .r1)).wf = false ∧
    (Instr.movb (.plain (.memRel .fp (.one 0#7) reservedDisp)) (r .r1)).wf = false ∧
    (Instr.movb (.plain (.external reservedDisp (.one 0#7))) (r .r1)).wf = false ∧
    (Instr.enter 0#8 reservedDisp).wf = false ∧ (Instr.acbb 1#4 (r .r1) reservedDisp).wf = false := by decide

theorem test_wf_immediate_too_long : (Instr.addb (im 0x100#64) (r .r1)).wf = false ∧ (Instr.addw (im 0x10000#64) (r .r1)).wf = false ∧
    (Instr.addd (im 0x100000000#64) (r .r1)).wf = false := by decide

theorem test_wf_indexed_immediate : (Instr.addb (.scaled (.imm 1#64) .r0 .b) (r .r1)).wf = false := by decide

theorem test_wf_immediate_destination : (Instr.addb (r .r1) (im 1#64)).wf = false ∧ (Instr.movb (r .r1) (im 1#64)).wf = false ∧
    (Instr.sbiti .b (r .r1) (im 1#64)).wf = false ∧ (Instr.addf .float (r .r1) (im 1#64)).wf = false ∧
    (Instr.movf .float (r .r1) (im 1#64)).wf = false := by decide

theorem test_wf_address_wanted : (Instr.jump (r .r1)).wf = false ∧ (Instr.addr (im 1#64) (r .r1)).wf = false := by decide

theorem test_wf_register_pair : (Instr.meii .b (r .r1) (r .r3)).wf = false ∧ (Instr.deii .b (r .r1) (im 0#64)).wf = false := by decide

theorem test_wf_always_is_br : (Instr.bcond .always (.one 0#7)).wf = false := by decide

theorem test_wf_negative_block : (Instr.movmi .b (.plain .tos) (.plain .tos) (.one 0x40#7)).wf = false ∧
    (Instr.cmpmi .b (.plain .tos) (.plain .tos) (.two 0x2000#14)).wf = false := by decide

theorem test_wf_removed_sub_opcode :
    [Instr.rdval 0x0018#16, .wrval 0x0018#16, .lmr 0x0018#16, .smr 0x0018#16, .movsui 0x0018#16, .movusi 0x0018#16,
    .catst0 0x0004#16, .catst1 0x0018#16, .lcr 0x0018#16, .scr 0x0018#16, .ccv0ci 0x0018#16, .ccv1ci 0x0018#16,
    .ccv2ci 0x0018#16, .ccv3ci 0x0018#16, .ccv4dq 0x0014#16, .ccv5qd 0x0018#16, .lcsr 0x0018#16, .scsr 0x0018#16,
    .ccal0c 0x0004#16, .ccal1c 0x0018#16, .ccal2c 0x0018#16, .ccal3c 0x0018#16, .cmov0c 0x0018#16, .cmov1c 0x0018#16,
    .cmov2c 0x0018#16, .cmov3c 0x0018#16, .ccmp0c 0x0018#16, .ccmp1c 0x0018#16].all (fun i => !i.wf) = true := by decide

theorem test_wf_removed_length : (Instr.lmr 0x000A#16).wf = false ∧ (Instr.lmr 0x0048#16).wf = false ∧ (Instr.movsui 0x000E#16).wf = false ∧
    (Instr.movusi 0x001E#16).wf = false := by decide

/-! ### Decoding words written out from the spec -/

/-- The bytes are exactly the instruction. -/
def decodesTo (p : List Byte × Instr) : Bool :=
  match decode p.1 with
  | .ok (i, rest) => decide (i = p.2) && rest.isEmpty
  | .error _ => false

theorem test_decode_format5 :
    [([0x0E#8, 0x19#8, 0x03#8], .bbor true true), ([0x0E#8, 0x31#8, 0x00#8], .bbfor),
    ([0x0E#8, 0x39#8, 0x03#8], .bbxor true true), ([0x0E#8, 0xAB#8, 0x03#8], .bband true true),
    ([0x0E#8, 0x11#8, 0x03#8], .bbstod true true), ([0x0E#8, 0x17#8, 0x00#8], .extblt),
    ([0x0E#8, 0x1C#8, 0x00#8], .movmpb), ([0x0E#8, 0x1D#8, 0x00#8], .movmpw), ([0x0E#8, 0x1F#8, 0x00#8], .movmpd),
    ([0x0E#8, 0x21#8, 0x00#8], .bitwt), ([0x0E#8, 0x27#8, 0x01#8], .tbits true), ([0x0E#8, 0x2F#8, 0x00#8], .sbitps),
    ([0x0E#8, 0x37#8, 0x00#8], .sbits), ([0x0E#8, 0x01#8, 0x07#8], .movsi .w true .untilMatch),
    ([0x0E#8, 0x81#8, 0x07#8], .movsti ⟨.w, true⟩ .untilMatch),
    ([0x0E#8, 0x05#8, 0x07#8], .cmpsi .w true .untilMatch),
    ([0x0E#8, 0x85#8, 0x07#8], .cmpsti ⟨.w, true⟩ .untilMatch), ([0x0E#8, 0x8B#8, 0x02#8], .setcfg 5#4),
    ([0x0E#8, 0x0D#8, 0x07#8], .skpsi .w true .untilMatch),
    ([0x0E#8, 0x8D#8, 0x07#8], .skpsti ⟨.w, true⟩ .untilMatch)].all decodesTo = true := by
  decide +kernel

theorem test_decode_format0 :
    [([0xEA#8, 0x44#8], .br (.one 0x44#7)), ([0x4A#8, 0x44#8], .bcond .hi (.one 0x44#7))].all decodesTo = true := by
  decide +kernel

theorem test_decode_format1 :
    [([0x02#8, 0x44#8], .bsr (.one 0x44#7)), ([0x12#8, 0x44#8], .ret (.one 0x44#7)),
    ([0x22#8, 0x44#8], .cxp (.one 0x44#7)), ([0x32#8, 0x44#8], .rxp (.one 0x44#7)),
    ([0x42#8, 0x44#8], .rett (.one 0x44#7)), ([0x52#8], .reti), ([0x62#8, 0xA5#8], .save 0xA5#8),
    ([0x72#8, 0xA5#8], .restore 0xA5#8), ([0x82#8, 0xA5#8, 0x44#8], .enter 0xA5#8 (.one 0x44#7)),
    ([0x92#8, 0xA5#8], .exit 0xA5#8), ([0xA2#8], .nop), ([0xB2#8], .wait), ([0xC2#8], .dia), ([0xD2#8], .flag),
    ([0xE2#8], .svc), ([0xF2#8], .bpt)].all decodesTo = true := by
  decide +kernel

theorem test_decode_format2_a :
    [([0x8C#8, 0x0E#8], .addqb 13#4 (r .r1)), ([0x8D#8, 0x0E#8], .addqw 13#4 (r .r1)),
    ([0x8F#8, 0x0E#8], .addqd 13#4 (r .r1)), ([0x9C#8, 0x0E#8], .cmpqb 13#4 (r .r1)),
    ([0x9D#8, 0x0E#8], .cmpqw 13#4 (r .r1)), ([0x9F#8, 0x0E#8], .cmpqd 13#4 (r .r1)),
    ([0x2C#8, 0x0D#8], .sprb .sb (r .r1)), ([0x2D#8, 0x0D#8], .sprw .sb (r .r1)),
    ([0x2F#8, 0x0D#8], .sprd .sb (r .r1)), ([0x3C#8, 0x0A#8], .scondb .hi (r .r1)),
    ([0x3D#8, 0x0A#8], .scondw .hi (r .r1)), ([0x3F#8, 0x0A#8], .scondd .hi (r .r1)),
    ([0xCC#8, 0x0E#8, 0x44#8], .acbb 13#4 (r .r1) (.one 0x44#7)),
    ([0xCD#8, 0x0E#8, 0x44#8], .acbw 13#4 (r .r1) (.one 0x44#7)),
    ([0xCF#8, 0x0E#8, 0x44#8], .acbd 13#4 (r .r1) (.one 0x44#7)), ([0xDC#8, 0x0E#8], .movqb 13#4 (r .r1)),
    ([0xDD#8, 0x0E#8], .movqw 13#4 (r .r1)), ([0xDF#8, 0x0E#8], .movqd 13#4 (r .r1)),
    ([0x6C#8, 0x0D#8], .lprb .sb (r .r1)), ([0x6D#8, 0x0D#8], .lprw .sb (r .r1))].all decodesTo = true := by
  decide +kernel

theorem test_decode_format2_b :
    [([0x6F#8, 0x0D#8], .lprd .sb (r .r1))].all decodesTo = true := by
  decide +kernel

theorem test_decode_format3 :
    [([0x7F#8, 0x48#8, 0x05#8], .cxpd (.plain (.regRel .r1 (.one 5#7)))), ([0x7C#8, 0x09#8], .bicpsrb (r .r1)),
    ([0x7D#8, 0x09#8], .bicpsrw (r .r1)), ([0x7F#8, 0x09#8], .bicpsrd (r .r1)),
    ([0x7F#8, 0x4A#8, 0x05#8], .jump (.plain (.regRel .r1 (.one 5#7)))), ([0x7C#8, 0x0B#8], .bispsrb (r .r1)),
    ([0x7D#8, 0x0B#8], .bispsrw (r .r1)), ([0x7F#8, 0x0B#8], .bispsrd (r .r1)), ([0x7C#8, 0x0D#8], .adjspb (r .r1)),
    ([0x7D#8, 0x0D#8], .adjspw (r .r1)), ([0x7F#8, 0x0D#8], .adjspd (r .r1)),
    ([0x7F#8, 0x4E#8, 0x05#8], .jsr (.plain (.regRel .r1 (.one 5#7)))), ([0x7C#8, 0x0F#8], .caseb (r .r1)),
    ([0x7D#8, 0x0F#8], .casew (r .r1)), ([0x7F#8, 0x0F#8], .cased (r .r1))].all decodesTo = true := by
  decide +kernel

theorem test_decode_format4_a :
    [([0x80#8, 0x08#8], .addb (r .r1) (r .r2)), ([0x81#8, 0x08#8], .addw (r .r1) (r .r2)),
    ([0x83#8, 0x08#8], .addd (r .r1) (r .r2)), ([0x84#8, 0x08#8], .cmpb (r .r1) (r .r2)),
    ([0x85#8, 0x08#8], .cmpw (r .r1) (r .r2)), ([0x87#8, 0x08#8], .cmpd (r .r1) (r .r2)),
    ([0x88#8, 0x08#8], .bicb (r .r1) (r .r2)), ([0x89#8, 0x08#8], .bicw (r .r1) (r .r2)),
    ([0x8B#8, 0x08#8], .bicd (r .r1) (r .r2)), ([0x90#8, 0x08#8], .addcb (r .r1) (r .r2)),
    ([0x91#8, 0x08#8], .addcw (r .r1) (r .r2)), ([0x93#8, 0x08#8], .addcd (r .r1) (r .r2)),
    ([0x94#8, 0x08#8], .movb (r .r1) (r .r2)), ([0x95#8, 0x08#8], .movw (r .r1) (r .r2)),
    ([0x97#8, 0x08#8], .movd (r .r1) (r .r2)), ([0x98#8, 0x08#8], .orb (r .r1) (r .r2)),
    ([0x99#8, 0x08#8], .orw (r .r1) (r .r2)), ([0x9B#8, 0x08#8], .ord (r .r1) (r .r2)),
    ([0xA0#8, 0x08#8], .subb (r .r1) (r .r2)), ([0xA1#8, 0x08#8], .subw (r .r1) (r .r2))].all decodesTo = true := by
  decide +kernel

theorem test_decode_format4_b :
    [([0xA3#8, 0x08#8], .subd (r .r1) (r .r2)),
    ([0xA7#8, 0x48#8, 0x05#8], .addr (.plain (.regRel .r1 (.one 5#7))) (r .r2)),
    ([0xA8#8, 0x08#8], .andb (r .r1) (r .r2)), ([0xA9#8, 0x08#8], .andw (r .r1) (r .r2)),
    ([0xAB#8, 0x08#8], .andd (r .r1) (r .r2)), ([0xB0#8, 0x08#8], .subcb (r .r1) (r .r2)),
    ([0xB1#8, 0x08#8], .subcw (r .r1) (r .r2)), ([0xB3#8, 0x08#8], .subcd (r .r1) (r .r2)),
    ([0xB4#8, 0x08#8], .tbitb (r .r1) (r .r2)), ([0xB5#8, 0x08#8], .tbitw (r .r1) (r .r2)),
    ([0xB7#8, 0x08#8], .tbitd (r .r1) (r .r2)), ([0xB8#8, 0x08#8], .xorb (r .r1) (r .r2)),
    ([0xB9#8, 0x08#8], .xorw (r .r1) (r .r2)), ([0xBB#8, 0x08#8], .xord (r .r1) (r .r2))].all decodesTo = true := by
  decide +kernel

theorem test_decode_format6 :
    [([0x4E#8, 0x81#8, 0x08#8], .roti .w (r .r1) (r .r2)), ([0x4E#8, 0x85#8, 0x08#8], .ashi .w (r .r1) (r .r2)),
    ([0x4E#8, 0x89#8, 0x08#8], .cbiti .w (r .r1) (r .r2)), ([0x4E#8, 0x8D#8, 0x08#8], .cbitii .w (r .r1) (r .r2)),
    ([0x4E#8, 0x95#8, 0x08#8], .lshi .w (r .r1) (r .r2)), ([0x4E#8, 0x99#8, 0x08#8], .sbiti .w (r .r1) (r .r2)),
    ([0x4E#8, 0x9D#8, 0x08#8], .sbitii .w (r .r1) (r .r2)), ([0x4E#8, 0xA1#8, 0x08#8], .negi .w (r .r1) (r .r2)),
    ([0x4E#8, 0xA5#8, 0x08#8], .noti .w (r .r1) (r .r2)), ([0x4E#8, 0xAD#8, 0x08#8], .subpi .w (r .r1) (r .r2)),
    ([0x4E#8, 0xB1#8, 0x08#8], .absi .w (r .r1) (r .r2)), ([0x4E#8, 0xB5#8, 0x08#8], .comi .w (r .r1) (r .r2)),
    ([0x4E#8, 0xB9#8, 0x08#8], .ibiti .w (r .r1) (r .r2)), ([0x4E#8, 0xBD#8, 0x08#8], .addpi .w (r .r1) (r .r2))].all decodesTo = true := by
  decide +kernel

theorem test_decode_format7 :
    [
    ([0xCE#8, 0x81#8, 0x4A#8, 0x05#8, 0x06#8, 0x44#8], .movmi .w (.plain (.regRel .r1 (.one 5#7))) (.plain (.regRel .r2 (.one 6#7))) (.one 0x44#7)),
    ([0xCE#8, 0x85#8, 0x4A#8, 0x05#8, 0x06#8, 0x44#8], .cmpmi .w (.plain (.regRel .r1 (.one 5#7))) (.plain (.regRel .r2 (.one 6#7))) (.one 0x44#7)),
    ([0xCE#8, 0x89#8, 0x08#8, 0xA9#8], .inssi .w (r .r1) (r .r2) 5#3 9#5),
    ([0xCE#8, 0x8D#8, 0x08#8, 0xA9#8], .extsi .w (r .r1) (r .r2) 5#3 9#5),
    ([0xCE#8, 0xA1#8, 0x08#8], .muli .w (r .r1) (r .r2)), ([0xCE#8, 0xA5#8, 0x08#8], .meii .w (r .r1) (r .r2)),
    ([0xCE#8, 0xAD#8, 0x08#8], .deii .w (r .r1) (r .r2)), ([0xCE#8, 0xB1#8, 0x08#8], .quoi .w (r .r1) (r .r2)),
    ([0xCE#8, 0xB5#8, 0x08#8], .remi .w (r .r1) (r .r2)), ([0xCE#8, 0xB9#8, 0x08#8], .modi .w (r .r1) (r .r2)),
    ([0xCE#8, 0xBD#8, 0x08#8], .divi .w (r .r1) (r .r2)), ([0xCE#8, 0x90#8, 0x08#8], .movxbw (r .r1) (r .r2)),
    ([0xCE#8, 0x94#8, 0x08#8], .movzbw (r .r1) (r .r2)), ([0xCE#8, 0x98#8, 0x08#8], .movzbd (r .r1) (r .r2)),
    ([0xCE#8, 0x99#8, 0x08#8], .movzwd (r .r1) (r .r2)), ([0xCE#8, 0x9C#8, 0x08#8], .movxbd (r .r1) (r .r2)),
    ([0xCE#8, 0x9D#8, 0x08#8], .movxwd (r .r1) (r .r2))].all decodesTo = true := by
  decide +kernel

theorem test_decode_format8 :
    [([0x2E#8, 0x99#8, 0x08#8, 0x44#8], .exti .w .r3 (r .r1) (r .r2) (.one 0x44#7)),
    ([0x6E#8, 0x99#8, 0x48#8, 0x05#8], .cvtp ⟨.r3, .w⟩ (.plain (.regRel .r1 (.one 5#7))) (r .r2)),
    ([0xAE#8, 0x99#8, 0x08#8, 0x44#8], .insi .w .r3 (r .r1) (r .r2) (.one 0x44#7)),
    ([0xEE#8, 0x99#8, 0x48#8, 0x05#8], .checki .w .r3 (.plain (.regRel .r1 (.one 5#7))) (r .r2)),
    ([0x2E#8, 0x9D#8, 0x08#8], .indexi .w .r3 (r .r1) (r .r2)),
    ([0x6E#8, 0x9D#8, 0x08#8], .ffsi ⟨.r3, .w⟩ (r .r1) (r .r2)), ([0xAE#8, 0x0C#8, 0x00#8], .movsui 0x000C#16),
    ([0xAE#8, 0x1C#8, 0x00#8], .movusi 0x001C#16)].all decodesTo = true := by
  decide +kernel

theorem test_decode_format9 :
    [([0x3E#8, 0x85#8, 0x08#8], .movif .float .w (r .r1) (r .r2)),
    ([0x3E#8, 0x0D#8, 0x08#8], .lfsr .float .w (r .r1) 0#5),
    ([0x3E#8, 0x95#8, 0x08#8], .movlf .float .w (r .r1) (r .r2)),
    ([0x3E#8, 0x9D#8, 0x08#8], .movfl .float .w (r .r1) (r .r2)),
    ([0x3E#8, 0xA5#8, 0x08#8], .roundfi .float .w (r .r1) (r .r2)),
    ([0x3E#8, 0xAD#8, 0x08#8], .truncfi .float .w (r .r1) (r .r2)),
    ([0x3E#8, 0xB5#8, 0x00#8], .sfsr .float .w 0#5 (r .r2)),
    ([0x3E#8, 0xBD#8, 0x08#8], .floorfi .float .w (r .r1) (r .r2))].all decodesTo = true := by
  decide +kernel

theorem test_decode_format11 :
    [([0xBE#8, 0x81#8, 0x08#8], .addf .float (r .r1) (r .r2)),
    ([0xBE#8, 0x85#8, 0x08#8], .movf .float (r .r1) (r .r2)),
    ([0xBE#8, 0x89#8, 0x08#8], .cmpf .float (r .r1) (r .r2)),
    ([0xBE#8, 0x91#8, 0x08#8], .subf .float (r .r1) (r .r2)),
    ([0xBE#8, 0x95#8, 0x08#8], .negf .float (r .r1) (r .r2)),
    ([0xBE#8, 0xA1#8, 0x08#8], .divf .float (r .r1) (r .r2)),
    ([0xBE#8, 0xB1#8, 0x08#8], .mulf .float (r .r1) (r .r2)),
    ([0xBE#8, 0xB5#8, 0x08#8], .absf .float (r .r1) (r .r2))].all decodesTo = true := by
  decide +kernel

theorem test_decode_format12 :
    [([0xFE#8, 0x89#8, 0x08#8], .polyf .float (r .r1) (r .r2)),
    ([0xFE#8, 0x8D#8, 0x08#8], .dotf .float (r .r1) (r .r2)),
    ([0xFE#8, 0x91#8, 0x08#8], .scalbf .float (r .r1) (r .r2)),
    ([0xFE#8, 0x95#8, 0x08#8], .logbf .float (r .r1) (r .r2))].all decodesTo = true := by
  decide +kernel

theorem test_decode_format14 :
    [([0x1E#8, 0x00#8, 0x00#8], .rdval 0x0000#16), ([0x1E#8, 0x04#8, 0x00#8], .wrval 0x0004#16),
    ([0x1E#8, 0x08#8, 0x00#8], .lmr 0x0008#16), ([0x1E#8, 0x0C#8, 0x00#8], .smr 0x000C#16)].all decodesTo = true := by
  decide +kernel

/-- The spec gives these groups' first byte only (R92); the sub-opcodes are the family's (log entry 36). -/
theorem test_decode_format15_a :
    [([0x16#8, 0x00#8, 0x00#8], .catst0 0x0000#16), ([0x16#8, 0x04#8, 0x00#8], .catst1 0x0004#16),
    ([0x16#8, 0x08#8, 0x00#8], .lcr 0x0008#16), ([0x16#8, 0x0C#8, 0x00#8], .scr 0x000C#16),
    ([0x36#8, 0x38#8, 0x00#8], .ccv0ci 0x0038#16), ([0x36#8, 0x28#8, 0x00#8], .ccv1ci 0x0028#16),
    ([0x36#8, 0x20#8, 0x00#8], .ccv2ci 0x0020#16), ([0x36#8, 0x00#8, 0x00#8], .ccv3ci 0x0000#16),
    ([0x36#8, 0x18#8, 0x00#8], .ccv4dq 0x0018#16), ([0x36#8, 0x10#8, 0x00#8], .ccv5qd 0x0010#16),
    ([0x36#8, 0x08#8, 0x00#8], .lcsr 0x0008#16), ([0x36#8, 0x30#8, 0x00#8], .scsr 0x0030#16),
    ([0xB6#8, 0x00#8, 0x00#8], .ccal0c 0x0000#16), ([0xB6#8, 0x10#8, 0x00#8], .ccal1c 0x0010#16),
    ([0xB6#8, 0x30#8, 0x00#8], .ccal2c 0x0030#16), ([0xB6#8, 0x20#8, 0x00#8], .ccal3c 0x0020#16),
    ([0xB6#8, 0x04#8, 0x00#8], .cmov0c 0x0004#16), ([0xB6#8, 0x34#8, 0x00#8], .cmov1c 0x0034#16),
    ([0xB6#8, 0x14#8, 0x00#8], .cmov2c 0x0014#16), ([0xB6#8, 0x24#8, 0x00#8], .cmov3c 0x0024#16)].all decodesTo = true := by
  decide +kernel

theorem test_decode_format15_b :
    [([0xB6#8, 0x08#8, 0x00#8], .ccmp0c 0x0008#16), ([0xB6#8, 0x0C#8, 0x00#8], .ccmp1c 0x000C#16)].all decodesTo = true := by
  decide +kernel

/-- The addressing modes, the three lengths of displacement and the order of the extensions (R82, R95). -/
theorem test_decode_modes :
    [([0x17#8, 0xA0#8, 0x00#8, 0x00#8, 0xB0#8, 0x00#8], .movd (im 0xB000#64) (r .r0)),
    ([0x57#8, 0xA1#8, 0x00#8, 0x00#8, 0x00#8, 0x05#8], .movd (im 5#64) (r .r5)),
    ([0x57#8, 0x50#8, 0x7F#8], .movd (.plain (.regRel .r2 (.one 0x7F#7))) (r .r1)),
    ([0x57#8, 0x80#8, 0x9F#8, 0xFF#8, 0x80#8, 0x01#8], .movd (.plain (.memRel .fp (.two 0x1FFF#14) (.two 1#14))) (r .r1)),
    ([0x57#8, 0x88#8, 0xC0#8, 0x00#8, 0x00#8, 0x07#8, 0x05#8], .movd (.plain (.memRel .sp (.four 7#30) (.one 5#7))) (r .r1)),
    ([0x57#8, 0x90#8, 0x01#8, 0x02#8], .movd (.plain (.memRel .sb (.one 1#7) (.one 2#7))) (r .r1)),
    ([0x57#8, 0xA8#8, 0xC0#8, 0x00#8, 0xA0#8, 0x00#8], .movd (.plain (.absolute (.four 0xA000#30))) (r .r1)),
    ([0x57#8, 0xB0#8, 0x01#8, 0x02#8], .movd (.plain (.external (.one 1#7) (.one 2#7))) (r .r1)),
    ([0x57#8, 0xB8#8], .movd (.plain .tos) (r .r1)),
    ([0x57#8, 0xC0#8, 0x04#8], .movd (.plain (.space .fp (.one 4#7))) (r .r1)),
    ([0x57#8, 0xC8#8, 0x04#8], .movd (.plain (.space .sp (.one 4#7))) (r .r1)),
    ([0x57#8, 0xD0#8, 0x04#8], .movd (.plain (.space .sb (.one 4#7))) (r .r1)),
    ([0x57#8, 0xD8#8, 0x04#8], .movd (.plain (.space .pc (.one 4#7))) (r .r1)),
    ([0x57#8, 0xE0#8, 0x1B#8], .movd (.scaled (.reg .r3) .r3 .b) (r .r1)),
    ([0x17#8, 0xEF#8, 0x53#8, 0x44#8, 0x01#8, 0x02#8], .movd (.scaled (.regRel .r2 (.one 1#7)) .r3 .w) (.scaled (.regRel .r0 (.one 2#7)) .r4 .b))].all decodesTo = true := by
  decide +kernel

-- Wrong options of Format 5, opcode 1111, a reserved displacement and mode, and removed instructions with i = 10 or with bit 14 of
-- Format 14 set (R85, R91, R95, R97, R99).
theorem test_decode_refuses : [[0x0E#8, 0x2B#8, 0x00#8], [0x0E#8, 0x99#8, 0x00#8], [0x0E#8, 0x31#8, 0x02#8], [0x0E#8, 0x3F#8, 0x00#8],
    [0x0E#8, 0x18#8, 0x00#8], [0xEA#8, 0xE0#8, 0#8, 0#8, 0#8], [0x57#8, 0x98#8], [0x1E#8, 0x0A#8, 0x00#8], [0x1E#8, 0x48#8, 0x00#8],
    [0xAE#8, 0x0E#8, 0x00#8], [0xAE#8, 0x1E#8, 0x00#8]].all
      (fun bs => match decode bs with | .ok _ => false | .error _ => true) = true := by
  decide +kernel

theorem test_table_word : decodeTableWord 24 0x00370E = some .sbits ∧ decodeTableWord 16 0x0017 =
    some (.movd (r .r0) (r .r0)) ∧ decodeTableWord 8 0xA2 = some .nop := by
  decide +kernel

/-! ### Single steps -/

/-- Memory with bytes laid out at some addresses. -/
def layout (m : List (Nat × List Byte)) : List Host.Cell := m.foldl (fun acc e => placeBytes acc e.1 e.2) []

/-- A state in supervisor mode with given registers, memory and flags; FP and SP as spec/95_test_vectors.md has them. -/
def start (regs : Regs) (m : List (Nat × List Byte)) (flags : List Flag) : State :=
  flags.foldl (fun s fl => s.setFlag fl true)
    { State.reset with regs := regs, pc := 0x1000#32, fp := 0x12345678#32, mod := 0x0100#16, intbase := 0x0400#32,
                       sb := 0x2000#32, mem := layout m }

/-- The step that runs these bytes gives a state with the property. -/
def after (bytes : List Byte) (s : State) (p : State → Bool) : Bool :=
  match step (placeInstr s bytes) with
  | .next t => p t
  | .fault _ => false
  | .refused _ => false

/-- The step that runs these bytes is refused so. -/
def refusedWith (bytes : List Byte) (s : State) (f : Refusal) : Bool :=
  match step (placeInstr s bytes) with
  | .next _ => false
  | .fault _ => false
  | .refused g => decide (g = f)

/-- The flags that are set. -/
def flagsAre (t : State) (fl : List Flag) : Bool :=
  [Flag.c, .t, .l, .k, .j, .f, .z, .n, .u, .s, .p, .i].all (fun x => t.flag x == fl.contains x)

/-- The bytes at an address. -/
def bytesAt (t : State) (a : Nat) (bs : List Byte) : Bool := fetchBytes t.mem bs.length a == bs

-- T3 (BBOR, width 2, height 2).
theorem test_bbor_T3 : after [0x0E#8, 0x19#8, 0x00#8]
    (start ⟨0xA000#32, 0xB000#32, 2#32, 2#32, 0xF800#32, 0xFF#32, 1#32, 0x13E#32⟩
      [(0xF000, [2#8]), (0xA000, [0x12#8, 0x34#8, 0x56#8, 0x78#8, 0x9A#8, 0xBC#8])] [.l])
    (fun t => bytesAt t 0xB000 [0x00#8, 0xC0#8, 0x58#8, 0x01#8] && bytesAt t 0xB140 [0x00#8, 0x60#8, 0xF2#8, 0x02#8] &&
      t.regs == ⟨0xA006#32, 0xB280#32, 2#32, 0#32, 0xF800#32, 0xFF#32, 1#32, 0x13E#32⟩ && flagsAre t [.l]) = true := by
  decide +kernel

-- V1 (BBOR with option DA).
theorem test_bbor_decreasing : after [0x0E#8, 0x19#8, 0x02#8]
    (start ⟨0xA004#32, 0xB004#32, 0#32, 1#32, 0xFF#32, 0xFF00#32, 0#32, 0#32⟩
      [(0xF000, [3#8]), (0xA000, [0x01#8, 0x80#8, 0xFF#8, 0xFF#8, 0x01#8, 0x80#8])] [])
    (fun t => bytesAt t 0xB000 [0x00#8, 0x80#8, 0xFF#8, 0xFF#8, 0x01#8, 0x00#8] && t.reg .r0 == 0xA000#32) = true := by
  decide +kernel

-- V7 (BBFOR with a zero shift touches words only).
theorem test_bbfor_words : after [0x0E#8, 0x31#8, 0x00#8]
    (start ⟨0xA000#32, 0xB000#32, 0#32, 1#32, 0xFFFF#32, 0xFFFF#32, 0#32, 0#32⟩
      [(0xF000, [2#8]), (0xA000, [0x34#8, 0x12#8, 0x78#8, 0x56#8]), (0xB000, [0x01#8, 0#8, 0#8, 0x80#8, 0xEE#8, 0xEE#8])] [])
    (fun t => bytesAt t 0xB000 [0x35#8, 0x12#8, 0x78#8, 0xD6#8, 0xEE#8, 0xEE#8]) = true := by
  decide +kernel

-- V10 (BBXOR).
theorem test_bbxor : after [0x0E#8, 0x39#8, 0x00#8]
    (start ⟨0xA000#32, 0xB000#32, 2#32, 1#32, 0xF800#32, 0xFF#32, 1#32, 0x13E#32⟩
      [(0xF000, [2#8]), (0xA000, [0x12#8, 0x34#8, 0x56#8, 0x78#8]), (0xB000, [0xFF#8, 0xFF#8, 0xFF#8, 0xFF#8])] [.l])
    (fun t => bytesAt t 0xB000 [0xFF#8, 0x3F#8, 0xA7#8, 0xFE#8]) = true := by
  decide +kernel

-- V5 (BBAND).
theorem test_bband : after [0x0E#8, 0xAB#8, 0x00#8]
    (start ⟨0xA000#32, 0xB000#32, 4#32, 1#32, 0#32, 0#32, 0#32, 0#32⟩
      [(0xF000, [3#8]), (0xA000, [0x01#8, 0x80#8, 0#8, 0#8, 0xF0#8, 0x0F#8]), (0xB000, [0xFF#8, 0xFF#8, 0xFF#8, 0xFF#8, 0xFF#8,
        0xFF#8, 0xFF#8, 0xFF#8])] [.l])
    (fun t => bytesAt t 0xB000 [0x1F#8, 0x00#8, 0x08#8, 0x00#8, 0x00#8, 0xFF#8, 0xF0#8, 0xFF#8]) = true := by
  decide +kernel

-- V4 (BBSTOD).
theorem test_bbstod : after [0x0E#8, 0x11#8, 0x00#8]
    (start ⟨0xA000#32, 0xB000#32, 4#32, 1#32, 0xFFFF#32, 0xFFFF#32, 0#32, 0#32⟩
      [(0xF000, [3#8]), (0xA000, [0x01#8, 0x80#8, 0xFF#8, 0xFF#8, 0x01#8, 0x80#8]), (0xB000, [0x55#8, 0x55#8, 0x55#8, 0x55#8,
        0x55#8, 0x55#8, 0x55#8, 0x55#8])] [.l])
    (fun t => bytesAt t 0xB000 [0x15#8, 0x00#8, 0xF8#8, 0xFF#8, 0x1F#8, 0x00#8, 0x58#8, 0x55#8]) = true := by
  decide +kernel

-- V26 to V32 (the refusals of R112, R116, R128).
theorem test_bb_refusals :
    refusedWith [0x0E#8, 0x19#8, 0#8] (start ⟨0#32, 0#32, 2#32, 1#32, 0#32, 0#32, 0#32, 0#32⟩ [(0xF000, [1#8])] []) .lFlagMismatch &&
    refusedWith [0x0E#8, 0x19#8, 0#8] (start ⟨0#32, 0#32, 16#32, 1#32, 0#32, 0#32, 0#32, 0#32⟩ [(0xF000, [1#8])] [.l])
      .shiftOutOfRange &&
    refusedWith [0x0E#8, 0x19#8, 0#8] (start ⟨0#32, 0#32, 0#32, 1#32, 0x10000#32, 0#32, 0#32, 0#32⟩ [(0xF000, [1#8])] [])
      .maskHighBits &&
    refusedWith [0x0E#8, 0x19#8, 0#8] (start ⟨0#32, 0#32, 0#32, 1#32, 0#32, 0#32, 0#32, 0#32⟩ [(0xF000, [1#8])] [.j]) .jkSet &&
    refusedWith [0x0E#8, 0x19#8, 0#8] (start ⟨0#32, 0#32, 0#32, 0#32, 0#32, 0#32, 0#32, 0#32⟩ [(0xF000, [1#8])] []) .heightZero &&
    refusedWith [0x0E#8, 0x19#8, 0#8] (start ⟨0#32, 0#32, 0#32, 1#32, 0#32, 0#32, 0#32, 0#32⟩ [] []) .widthZero = true := by
  decide +kernel

-- T4 and V33 (BITWT).
theorem test_bitwt : after [0x0E#8, 0x21#8, 0x00#8]
    (start ⟨0xA000#32, 0xB000#32, 2#32, 0#32, 0#32, 0#32, 0#32, 0#32⟩
      [(0xA000, [0x51#8, 0x6A#8]), (0xB000, [0x30#8, 0x52#8, 0x24#8, 0x62#8])] [.l])
    (fun t => bytesAt t 0xB000 [0x74#8, 0xFB#8, 0x25#8, 0x62#8] && t.reg .r0 == 0xA002#32 && t.reg .r1 == 0xB002#32) &&
    after [0x0E#8, 0x21#8, 0x00#8] (start ⟨0xA000#32, 0xB000#32, 0#32, 0#32, 0#32, 0#32, 0#32, 0#32⟩
      [(0xA000, [0x51#8, 0x6A#8]), (0xB000, [0x30#8, 0x52#8, 0x24#8, 0x62#8])] [])
    (fun t => bytesAt t 0xB000 [0x71#8, 0x7A#8, 0x24#8, 0x62#8]) = true := by
  decide +kernel

-- T5 (EXTBLT): the registers; what is written is the BPU's.
theorem test_extblt : after [0x0E#8, 0x17#8, 0x00#8]
    (start ⟨0xA000#32, 0xB000#32, 4#32, 2#32, 2#32, 99#32, 2#32, 0x13E#32⟩ [] [.l])
    (fun t => t.regs == ⟨0xA008#32, 0xB280#32, 4#32, 0#32, 2#32, 0#32, 2#32, 0x13E#32⟩ && t.pc == 0x1003#32 && !t.nbpu) = true := by
  decide +kernel

-- T6 (MOVMPW) and V54 (MOVMPD, unaligned).
theorem test_movmp : after [0x0E#8, 0x1D#8, 0x00#8]
    (start ⟨0xA000#32, 2#32, 3#32, 0x5555AAAA#32, 0#32, 0#32, 0#32, 0#32⟩ [(0xA006, [0x12#8])] [])
    (fun t => bytesAt t 0xA000 [0xAA#8, 0xAA#8, 0xAA#8, 0xAA#8, 0xAA#8, 0xAA#8, 0x12#8] && t.reg .r0 == 0xA006#32 &&
      t.reg .r2 == 0#32 && t.pc == 0x1003#32) &&
    after [0x0E#8, 0x1F#8, 0x00#8] (start ⟨0xA001#32, 3#32, 2#32, 0xCAFEBABE#32, 0#32, 0#32, 0#32, 0#32⟩ [] [])
    (fun t => bytesAt t 0xA000 [0x00#8, 0xBE#8, 0xBA#8, 0xFE#8, 0xBE#8, 0xBA#8, 0xFE#8, 0xCA#8, 0x00#8]) &&
    after [0x0E#8, 0x1C#8, 0x00#8] (start ⟨0xA003#32, 0xFFFFFFFF#32, 2#32, 0x44#32, 0#32, 0#32, 0#32, 0#32⟩ [] [])
    (fun t => bytesAt t 0xA001 [0x00#8, 0x44#8, 0x44#8, 0x00#8]) = true := by
  decide +kernel

-- T7 and V62 (SBITS): the table's entry for run length 12 at offset 0 is at 0x8000 + 48.
theorem test_sbits : after [0x0E#8, 0x37#8, 0x00#8]
    (start ⟨0xA000#32, 8#32, 12#32, 0x8000#32, 0#32, 0#32, 0#32, 0#32⟩
      [(0xA000, [0x51#8, 0x62#8, 0xAB#8, 0x00#8, 0x77#8]), (0x8030, [0xFF#8, 0x0F#8])] [.f])
    (fun t => bytesAt t 0xA000 [0x51#8, 0xFF#8, 0xAF#8, 0x00#8, 0x77#8] && flagsAre t []) &&
    after [0x0E#8, 0x37#8, 0x00#8] (start ⟨0xA000#32, 7#32, 26#32, 0x8000#32, 0#32, 0#32, 0#32, 0#32⟩ [] [])
    (fun t => flagsAre t [.f] && t.mem == layout [(0x1000, [0x0E#8, 0x37#8])]) = true := by
  decide +kernel

-- V71 (SBITPS with a negative offset).
theorem test_sbitps : after [0x0E#8, 0x2F#8, 0x00#8]
    (start ⟨0xA002#32, 0xFFFFFFFD#32, 3#32, 9#32, 0#32, 0#32, 0#32, 0#32⟩ [] [])
    (fun t => bytesAt t 0xA000 [0x00#8, 0x20#8, 0x40#8, 0x80#8] && t.reg .r1 == 0x18#32 && t.reg .r2 == 0#32) = true := by
  decide +kernel

-- T9 and V95 (TBITS 0 ends on a set bit; TBITS 1 ends on the bit offset).
theorem test_tbits : after [0x0E#8, 0x27#8, 0x00#8]
    (start ⟨0xA000#32, 0x1F#32, 0#32, 0xFF#32, 0x140#32, 0#32, 0#32, 0#32⟩
      [(0xA000, [0xED#8, 0xF8#8, 0xAE#8, 0x6F#8, 0x00#8, 0xEF#8, 0x85#8, 0xC1#8])] [])
    (fun t => t.reg .r1 == 0x28#32 && t.reg .r2 == 9#32 && flagsAre t [.l, .f]) &&
    after [0x0E#8, 0x27#8, 0x01#8] (start ⟨0xA000#32, 4#32, 0#32, 0xFF#32, 0x10#32, 0#32, 0#32, 0#32⟩
      [(0xA000, [0xFF#8, 0xFF#8, 0x00#8])] [])
    (fun t => t.reg .r1 == 0x10#32 && t.reg .r2 == 0xC#32 && flagsAre t [.f]) = true := by
  decide +kernel

/-- The general registers of the tests below. -/
def regs0 : Regs := ⟨0xFFFFFFFF#32, 0x00000001#32, 0x80000080#32, 0x0000007F#32, 0x00008000#32, 5#32, 6#32, 0x0000A000#32⟩

-- R407, R409: byte arithmetic keeps the upper bytes of a register; carry, borrow and overflow.
theorem test_add_sub : after [0x40#8, 0x08#8] (start regs0 [] [])  -- ADDB R1,R1
    (fun t => t.reg .r1 == 2#32 && flagsAre t [] && t.pc == 0x1002#32) &&
    after [0x00#8, 0x08#8] (start regs0 [] [.z])  -- ADDB R1,R0
    (fun t => t.reg .r0 == 0xFFFFFF00#32 && flagsAre t [.c, .z]) &&
    after [0xC0#8, 0x08#8] (start regs0 [] [])  -- ADDB R1,R3
    (fun t => t.reg .r3 == 0x80#32 && flagsAre t [.f]) &&
    after [0x60#8, 0x00#8] (start regs0 [] [])  -- SUBB R0,R1
    (fun t => t.reg .r1 == 2#32 && flagsAre t [.c]) &&
    after [0x50#8, 0x08#8] (start regs0 [] [.c])  -- ADDCB R1,R1
    (fun t => t.reg .r1 == 3#32) && after [0x70#8, 0x08#8] (start regs0 [] [.c])  -- SUBCB R1,R1
    (fun t => t.reg .r1 == 0xFF#32 && flagsAre t [.c]) &&
    after [0x8C#8, 0x0A#8] (start regs0 [] []) (fun t => t.reg .r1 == 6#32)  -- ADDQB 5,R1
    = true := by
  decide +kernel

-- R402: CMPB R2,0 with R2's low byte 80 hex: L is 1, N is 0 for it is negative.
theorem test_cmp : after [0x04#8, 0x15#8, 0x00#8] (start regs0 [] [.z]) (fun t => flagsAre t [.l] && t.pc == 0x1003#32) &&
    after [0x9C#8, 0xA0#8, 0x02#8] (start regs0 [] [.z]) (fun t => flagsAre t []) &&
    after [0x1C#8, 0xA1#8, 0x01#8] (start regs0 [] [.z]) (fun t => flagsAre t [.l, .n]) = true := by
  decide +kernel

-- R410 to R413 on R2 and R3 (80 and 7F hex in the low bytes).
theorem test_logic : after [0xE8#8, 0x10#8] (start regs0 [] []) (fun t => t.reg .r3 == 0#32) &&  -- ANDB R2,R3
    after [0xD8#8, 0x10#8] (start regs0 [] []) (fun t => t.reg .r3 == 0xFF#32) &&  -- ORB R2,R3
    after [0xF8#8, 0x10#8] (start regs0 [] []) (fun t => t.reg .r3 == 0xFF#32) &&  -- XORB R2,R3
    after [0xC8#8, 0x28#8] (start regs0 [] []) (fun t => t.reg .r3 == 0x7A#32) = true := by  -- BICB R5,R3
  decide +kernel

-- R404 to R406, R418, R427.
theorem test_moves : after [0x17#8, 0xA0#8, 0#8, 0#8, 0xB0#8, 0#8] (start regs0 [] []) (fun t => t.reg .r0 == 0xB000#32) &&
    after [0x5F#8, 0x10#8] (start regs0 [] []) (fun t => t.reg .r2 == 0#32) &&
    after [0xCE#8, 0x19#8, 0x00#8] (start regs0 [] []) (fun t => t.reg .r0 == 0xFFFF#32) &&  -- MOVZWD R0,R0
    after [0xCE#8, 0x9C#8, 0x10#8] (start regs0 [] []) (fun t => t.reg .r2 == 0xFFFFFF80#32) &&  -- MOVXBD R2,R2
    after [0x27#8, 0xA8#8, 0x19#8] (start regs0 [] []) (fun t => t.reg .r0 == 0x19#32) = true := by  -- ADDR 25,R0
  decide +kernel

-- R419, R420: shifts by R6 = 6 and by an immediate; the count is a byte.
theorem test_shifts : after [0x4E#8, 0xD7#8, 0xA0#8, 0x04#8] (start regs0 [] []) (fun t => t.reg .r3 == 0x7F0#32) &&  -- LSHD 4,R3
    after [0x4E#8, 0x94#8, 0xA0#8, 0xFC#8] (start regs0 [] []) (fun t => t.reg .r2 == 0x80000008#32) &&  -- LSHB -4,R2
    after [0x4E#8, 0x84#8, 0xA0#8, 0xFC#8] (start regs0 [] []) (fun t => t.reg .r2 == 0x800000F8#32) &&  -- ASHB -4,R2
    after [0x4E#8, 0x80#8, 0xA0#8, 0x01#8] (start regs0 [] []) (fun t => t.reg .r2 == 0x80000001#32) = true := by  -- ROTB 1,R2
  decide +kernel

-- R422 to R425: SBITB R5,0(R7) sets bit 5 of the byte at A000; TBITB R5,R1; CBITD -1,0(R7) clears bit 7 of the byte at 9FFF.
theorem test_bits : after [0x4E#8, 0x18#8, 0x28#8] (start regs0 [] [.f]) (fun t => t.reg .r0 == 0xFFFFFFFF#32 && flagsAre t [.f]) &&
    after [0x4E#8, 0xD8#8, 0x2B#8, 0x00#8] (start regs0 [] [.f]) (fun t => bytesAt t 0xA000 [0x20#8] && flagsAre t []) &&
    after [0x74#8, 0x28#8] (start regs0 [] [.f]) (fun t => flagsAre t []) &&
    after [0x4E#8, 0xCB#8, 0x03#8, 0x00#8] (start regs0 [(0x9FFF, [0xFF#8])] []) (fun t => bytesAt t 0x9FFF [0x7F#8] && flagsAre t [.f])
      = true := by
  decide +kernel

-- R249, R262, R279, R280: DIV rounds down, QUO toward zero; -7 by 2 in R0 and R1.
theorem test_division : after [0xCE#8, 0x3F#8, 0x08#8] (start ⟨0xFFFFFFF9#32, 2#32, 0#32, 0#32, 0#32, 0#32, 0#32, 0#32⟩ [] [])
    (fun t => t.reg .r0 == 0xFFFFFFFC#32) &&
    after [0xCE#8, 0x33#8, 0x08#8] (start ⟨0xFFFFFFF9#32, 2#32, 0#32, 0#32, 0#32, 0#32, 0#32, 0#32⟩ [] [])
    (fun t => t.reg .r0 == 0xFFFFFFFD#32) &&
    after [0xCE#8, 0x3B#8, 0x08#8] (start ⟨0xFFFFFFF9#32, 2#32, 0#32, 0#32, 0#32, 0#32, 0#32, 0#32⟩ [] [])
    (fun t => t.reg .r0 == 1#32) &&
    after [0xCE#8, 0x37#8, 0x08#8] (start ⟨0xFFFFFFF9#32, 2#32, 0#32, 0#32, 0#32, 0#32, 0#32, 0#32⟩ [] [])
    (fun t => t.reg .r0 == 0xFFFFFFFF#32) = true := by
  decide +kernel

-- R416: BFS (8A) and BEQ (0A), taken and not; R426: ACBB -1,R1 from 1 falls through.
theorem test_branches : after [0x8A#8, 0x7E#8] (start regs0 [] [.f]) (fun t => t.pc == 0xFFE#32) &&
    after [0x8A#8, 0x7E#8] (start regs0 [] []) (fun t => t.pc == 0x1002#32) &&
    after [0x0A#8, 0x83#8, 0xE8#8] (start regs0 [] [.z]) (fun t => t.pc == 0x13E8#32) &&
    after [0xEA#8, 0xC0#8, 0x01#8, 0x00#8, 0x00#8] (start regs0 [] []) (fun t => t.pc == 0x11000#32) &&
    after [0xCC#8, 0x0F#8, 0x10#8] (start regs0 [] []) (fun t => t.pc == 0x1003#32 && t.reg .r1 == 0#32) = true := by
  decide +kernel

-- R236, R282: BSR pushes the address of the next instruction.
theorem test_bsr : after [0x02#8, 0x10#8] (start regs0 [] []) (fun t => t.pc == 0x1010#32 && t.sp == 0xEFFC#32 &&
    bytesAt t 0xEFFC [0x02#8, 0x10#8, 0x00#8, 0x00#8]) = true := by
  decide +kernel

-- R433: SVC (vector 5) from user mode on SP1: PSR and MOD, then PC, on SP0; MOD, SB, PC from the descriptor at 414 hex.
theorem test_svc : after [0xE2#8] (start regs0 [(0x414, [0x00#8, 0x02#8, 0x34#8, 0x12#8]), (0x200, [0x78#8, 0x56#8]), (0x208, [0x00#8,
      0x00#8, 0x01#8])] [.u, .s, .c])
    (fun t => t.pc == 0x11234#32 && t.mod == 0x200#16 && t.sb == 0x5678#32 && flagsAre t [.c] && t.sp0 == 0xEFF8#32 &&
      bytesAt t 0xEFF8 [0x00#8, 0x10#8, 0x00#8, 0x00#8, 0x00#8, 0x01#8, 0x01#8, 0x03#8]) = true := by
  decide +kernel

-- R92: LMR takes the undefined instruction trap (vector 10); R438: SETCFG in user mode the illegal operation trap (vector 4).
theorem test_und_ill : after [0x1E#8, 0x08#8, 0x00#8] (start regs0 [(0x428, [0x00#8, 0x02#8])] []) (fun t => t.mod == 0x200#16) &&
    after [0x0E#8, 0x8B#8, 0x02#8] (start regs0 [(0x410, [0x00#8, 0x02#8])] [.u]) (fun t => t.mod == 0x200#16 && t.cfg == 0#4) &&
    after [0x0E#8, 0x8B#8, 0x02#8] (start regs0 [] []) (fun t => t.cfg == 5#4 && t.pc == 0x1003#32) = true := by
  decide +kernel

-- R414, R415: BICPSRB 18 clears J and K; BISPSRW 800 sets I.
theorem test_psr : after [0x7C#8, 0xA1#8, 0x18#8] (start regs0 [] [.j, .k, .f]) (fun t => flagsAre t [.f]) &&
    after [0x7D#8, 0xA3#8, 0x08#8, 0x00#8] (start regs0 [] []) (fun t => flagsAre t [.i]) = true := by
  decide +kernel

-- R242, R266: MOVSB and CMPSB of two elements.
theorem test_strings : after [0x0E#8, 0x00#8, 0x00#8] (start ⟨2#32, 0xA000#32, 0xB000#32, 0#32, 0#32, 0#32, 0#32, 0#32⟩
      [(0xA000, [1#8, 2#8, 3#8])] [.f])
    (fun t => bytesAt t 0xB000 [1#8, 2#8, 0#8] && t.reg .r0 == 0#32 && t.reg .r1 == 0xA002#32 && flagsAre t []) &&
    after [0x0E#8, 0x04#8, 0x00#8] (start ⟨2#32, 0xA000#32, 0xB000#32, 0#32, 0#32, 0#32, 0#32, 0#32⟩
      [(0xA000, [1#8, 2#8]), (0xB000, [1#8, 3#8])] [])
    (fun t => t.reg .r0 == 1#32 && flagsAre t []) = true := by
  decide +kernel

-- R267: MOVSTB of two elements, translated by the table at C000 hex (log entry 34).
theorem test_strings_translated : after [0x0E#8, 0x80#8, 0x00#8] (start ⟨2#32, 0xA000#32, 0xB000#32, 0xC000#32, 0#32, 0#32, 0#32, 0#32⟩
      [(0xA000, [1#8, 2#8]), (0xC001, [0x11#8, 0x22#8])] [])
    (fun t => bytesAt t 0xB000 [0x11#8, 0x22#8, 0#8] && t.reg .r2 == 0xB002#32) = true := by
  decide +kernel

-- R287, R281: SAVE R0,R5 and RESTORE R0,R5 (log entry 41).
theorem test_save_restore : after [0x62#8, 0x21#8] (start regs0 [] [])
    (fun t => t.sp == 0xEFF8#32 && bytesAt t 0xEFF8 [5#8, 0#8, 0#8, 0#8, 0xFF#8, 0xFF#8, 0xFF#8, 0xFF#8]) &&
    after [0x72#8, 0x84#8] (start regs0 [(0xF000, [9#8, 0#8, 0#8, 0#8, 8#8])] [])
    (fun t => t.reg .r5 == 9#32 && t.reg .r0 == 8#32 && t.sp == 0xF008#32) = true := by
  decide +kernel

-- R224: ADDPB R0,R1 of 37 and 45 with the carry set gives 83.
theorem test_decimal : ∃ t, exec (.addpi .b (r .r0) (r .r1))
    (start ⟨0x37#32, 0x45#32, 0#32, 0#32, 0#32, 0#32, 0#32, 0#32⟩ [] [.c]) = .next t ∧ t.reg .r1 = 0x83#32 :=
  ⟨_, rfl, by decide +kernel⟩

-- R252, R255: EXTB R5 (offset 5), 0(R7), R1, 3 and INSB R5, R1, 0(R7), 3.
theorem test_fields : after [0x2E#8, 0x68#8, 0x78#8, 0x00#8, 0x03#8] (start regs0 [(0xA000, [0xA0#8])] []) (fun t => t.reg .r1 == 5#32) &&
    after [0xAE#8, 0xE8#8, 0x0B#8, 0x00#8, 0x03#8] (start regs0 [(0xA000, [0xA0#8])] []) (fun t => bytesAt t 0xA000 [0x20#8, 0#8]) = true := by
  decide +kernel

-- R93: with CFG.F clear a floating-point instruction takes the undefined instruction trap; with it set MOVF moves the bits.
theorem test_float : after [0xBE#8, 0x85#8, 0xD0#8] (start regs0 [(0x428, [0x00#8, 0x02#8])] []) (fun t => t.mod == 0x200#16) &&
    after [0xBE#8, 0x45#8, 0xA0#8, 0x3F#8, 0x80#8, 0x00#8, 0x00#8] { start regs0 [] [] with cfg := 2#4 }
      (fun t => t.fregs.l0 == 0x3F80000000000000#64 && t.pc == 0x1007#32) = true := by
  decide +kernel

-- R443: with T set, NOP is followed by the trace trap (vector 9), whose return address is the next instruction.
theorem test_trace : after [0xA2#8] (start regs0 [(0x424, [0x00#8, 0x02#8])] [.t])
    (fun t => t.mod == 0x200#16 && flagsAre t [] && bytesAt t 0xEFF8 [0x01#8, 0x10#8, 0#8, 0#8, 0x00#8, 0x01#8, 0x02#8, 0x00#8])
      = true := by
  decide +kernel

-- R66: executing a byte just stored is refused, and is allowed after a flush.
theorem test_stale : (match (start regs0 [(0x1000, [0xA2#8])] []).storeByte 0x1000#32 0xA2#8 with
    | .ok t => (match step t, step t.flushQueue with | .refused f, .next _ => decide (f = .staleFetch) | _, _ => false)
    | .error _ => false) = true := by
  decide +kernel

-- R66, R490 (a): of the forms of BICPSRi and BISPSRi, byte and word flush the queue; the list does not name the double-words.
theorem test_psr_flush : ([Instr.bicpsrb (r .r1), .bicpsrw (r .r1), .bispsrb (r .r1), .bispsrw (r .r1), .bicpsrd (r .r1),
    .bispsrd (r .r1)].map fun i => match exec i { start regs0 [] [] with unflushed := [7] } with
      | .next t => t.unflushed.length | _ => 9) = [0, 0, 0, 0, 1, 1] := by
  decide +kernel

/-! ### Witnesses: for every statement with hypotheses, states and operands that meet all of them, for each clause -/

/-- The state the witnesses start from: supervisor mode, empty memory, both stacks at F000 hex. -/
def sv : State :=
  { State.reset with regs := ⟨0xA000#32, 0xB000#32, 0#32, 1#32, 0xFFFF#32, 0xFFFF#32, 0#32, 0#32⟩, pc := 0x1000#32,
                     fp := 0x2000#32, sb := 0x3000#32, mod := 0x0100#16, intbase := 0x0400#32 }

/-- The same in user mode on the user stack. -/
def su : State := { sv with psr := 0x0300#16 }

/-- `sv` with other registers. -/
def withRegs (a b c d e f g h : Dword) : State := { sv with regs := ⟨a, b, c, d, e, f, g, h⟩ }

/-- An operation that answers a state answers some state. -/
theorem exists_of_isOk {x : Res State} (h : x.isOk = true) : ∃ t, x = .ok t := by
  cases x with
  | ok t => exact ⟨t, rfl⟩
  | error e => cases h

/-- `sv` with bytes placed at an address. -/
def withBytes (a : Nat) (bs : List Byte) : State := { sv with mem := placeBytes [] a bs }

theorem test_met_DecodeEncode : (Instr.bbstod true true).wf = true ∧ (Instr.movsti ⟨.w, true⟩ .untilMatch).wf = true ∧
    (Instr.addd (.scaled (.memRel .sb (.four 0x1FFFFFFF#30) (.two 0x2000#14)) .r7 .q) (r .r1)).wf = true ∧
    (Instr.scalbf .long (im 0xFFFFFFFFFFFFFFFF#64) (r .r7)).wf = true ∧ (Instr.lcsr 0x0008#16).wf = true := by decide

theorem test_met_DecodeSound : decode [0xEA#8, 0xC0#8, 0x01#8, 0#8, 0#8, 0xFF#8] = .ok (.br (.four 0x10000#30), [0xFF#8]) := rfl

/-- The hypotheses of StepRunsDecoded on the state, for bytes at PC that decode to the instruction. -/
def fetches (s : State) (i : Instr) : Bool :=
  !s.waiting && decide (s.pc.toNat < 2 ^ 24) && s.unflushed.all (fun k => !(decide (s.pc.toNat ≤ k) && decide (k < s.pc.toNat + i.size))) &&
    match decode (fetchWindow s.mem s.pc.toNat) with
    | .ok (j, _) => decide (j = i)
    | .error _ => false

theorem test_met_StepRunsDecoded_next : fetches (withBytes 0x1000 [0xA2#8]) .nop = true ∧
    fetches { withBytes 0xFFFFFF [0xA2#8] with pc := 0xFFFFFF#32, unflushed := [0xFFFFFE] } .nop = true ∧
    ∃ t, exec .nop (withBytes 0x1000 [0xA2#8]) = .next t ∧ t.flag .p = false :=
  ⟨by decide +kernel, by decide +kernel, _, rfl, by decide +kernel⟩

theorem test_met_StepRunsDecoded_trace : fetches ((withBytes 0x1000 [0xA2#8]).setFlag .t true) .nop = true ∧
    ∃ t, exec .nop (((withBytes 0x1000 [0xA2#8]).setFlag .t true).setFlag .p true) = .next t ∧ t.flag .p = true ∧ t.waiting = false :=
  ⟨by decide +kernel, _, rfl, by decide +kernel, rfl⟩

-- ADDB R0,#0, an illegal form that decodes, and BBOR with height 0.
theorem test_met_StepRunsDecoded_stops : fetches (withBytes 0x1000 [0x00#8, 0x05#8]) (.addb (r .r0) (im 0#64)) = true ∧
    exec (.addb (r .r0) (im 0#64)) sv = .fault .immediateDestination ∧
    fetches (withBytes 0x1000 [0x0E#8, 0x19#8, 0#8]) (.bbor false false) = true ∧
    exec (.bbor false false) (withRegs 0#32 0#32 0#32 0#32 0#32 0#32 0#32 0#32) = .refused .heightZero :=
  ⟨by decide +kernel, rfl, by decide +kernel, rfl⟩

theorem test_met_PlacedWordRuns : ({ sv with pc := BitVec.ofNat 32 (2 ^ 24 - maxInstrBytes) }).pc.toNat + maxInstrBytes ≤ 2 ^ 24 ∧
    decodeTableWord 8 0xA2 = some .nop ∧ decodeTableWord 24 0x00190E = some (.bbor false false) := by decide +kernel

theorem test_met_StaleFetchRefused : ∃ t, sv.storeByte 0x1001#32 0x08#8 = .ok t ∧ t.waiting = false ∧ t.pc.toNat < 2 ^ 24 ∧
    fetches { t with unflushed := [] } (.addb (r .r1) (r .r0)) = true ∧ InRange 0x1001 t.pc (Instr.addb (r .r1) (r .r0)).size :=
  ⟨_, rfl, rfl, by and_intros <;> decide +kernel⟩

theorem test_met_TraceTrapAfterNop : let s := (withBytes 0xFFFFFF [0xA2#8]).setFlag .t true
    let s := s.setPc 0xFFFFFF#32
    s.waiting = false ∧ s.pc.toNat + 1 ≤ 2 ^ 24 ∧ s.flag .t = true ∧ Memory.read s.mem s.pc.toNat = 0xA2#8 ∧ s.unflushed = [] ∧
      ∃ t, takeException .trc (s.pc + 1#32) ((s.setPc (s.pc + 1#32)).setFlag .p false) = .ok t := by
  dsimp only
  and_intros <;> first | decide +kernel | rfl | exact ⟨_, rfl⟩

theorem test_met_StepKeepsInv : Safety.Inv sv ∧ ∃ t, step sv = .next t := by
  and_intros <;> first | decide +kernel | rfl | exact ⟨_, rfl⟩

theorem test_met_UserModeConfined : su.flag .u = true ∧ (∃ t, exec .nop su = .next t) ∧ ∃ t, exec .svc su = .next t :=
  ⟨by decide +kernel, ⟨_, rfl⟩, _, rfl⟩

theorem test_met_GraphicsFlags : (∃ t, exec .bitwt sv = .next t) ∧ (∃ t, exec .sbits sv = .next t) ∧ (∃ t, exec (.tbits false) sv = .next t) :=
  ⟨⟨_, rfl⟩, ⟨_, rfl⟩, _, rfl⟩

theorem test_met_LittleEndian : Fits 0xFFFFF8#32 8 ∧ Fits 0#32 0 := by decide +kernel

theorem test_met_StoreFrame : (∃ t, sv.store 4 0xFFFFFC#32 0x12345678#64 = .ok t) ∧ ¬Fits 0xFFFFFD#32 4 ∧ ¬Fits 0xFFFFFFFF#32 1 :=
  ⟨⟨_, rfl⟩, by decide +kernel, by decide +kernel⟩

theorem test_met_RegisterOperand : (Reg.r0, Reg.r0, 0) ∈ [(Reg.r0, Reg.r0, 0), (.r1, .r0, 32)] ∧ Reg.r7 ≠ Reg.r6 := by decide

theorem test_met_EffectiveAddresses : (∃ p, sv.load32 (sv.fp + Disp.val (.one 0x40#7)) = .ok p) ∧ (∃ p, sv.load32 (sv.sp + Disp.val (.one 4#7)) = .ok p) ∧
    (∃ p, sv.load32 (sv.sb + Disp.val (.two 0#14)) = .ok p) ∧
    (∃ q p, sv.load32 (sv.mod.setWidth 32 + 4#32) = .ok q ∧ sv.load32 (q + 4#32 * Disp.val (.one 3#7)) = .ok p) ∧
    (∃ v, sv.load 8 sv.sp = .ok v) ∧ placeBase (.regRel .r0 (.one 0x7F#7)) sv = .ok (.mem 0x9FFF#32) :=
  ⟨⟨_, rfl⟩, ⟨_, rfl⟩, ⟨_, rfl⟩, ⟨_, _, rfl, rfl⟩, ⟨_, rfl⟩, rfl⟩

-- Byte operands 0 (R0) and 0 (R1), with and without a carry in; F and C change at 7F and FF hex.
theorem test_met_AddSubResult : let s := (withRegs 0xFF#32 0x80#32 0#32 0#32 0#32 0#32 0#32 0#32).setFlag .c true
    readInt .b (r .r0) s = .ok (0xFF#8, s) ∧ place (r .r1) s = .ok (.reg .r1) ∧ (Loc.reg .r1).readInt .b s = .ok 0x80#8 ∧
      ((0x7F#8).toNat : Int) = (0x80 + 0xFF : Int) % 2 ^ lenBits .b ∧ ((0x80#8).toNat : Int) = (0x80 - 0xFF - 1 : Int) % 2 ^ lenBits .b ∧
      (∃ t, (Loc.reg .r1).writeInt .b 0x7F#8 ((s.setFlag .c true).setFlag .f true) = .ok t) ∧
      (∃ t, (Loc.reg .r1).writeInt .b 0x80#8 ((s.setFlag .c true).setFlag .f false) = .ok t) := by
  dsimp only
  and_intros <;> first | decide +kernel | rfl | exact ⟨_, rfl⟩

theorem test_met_AddSubResult_memory : ∃ s1, readInt .d (.plain .tos) sv = .ok (0#32, s1) ∧ place (.plain (.absolute (.two 0x1FFF#14))) s1 = .ok (.mem 0x1FFF#32) ∧
    (Loc.mem 0x1FFF#32).readInt .d s1 = .ok 0#32 ∧ (∃ t, (Loc.mem 0x1FFF#32).writeInt .d 0#32 s1 = .ok t) :=
  ⟨_, rfl, rfl, rfl, _, rfl⟩

theorem test_met_LogicResult : readInt .w (r .r0) sv = .ok (0xA000#16, sv) ∧ place (r .r1) sv = .ok (.reg .r1) ∧
    (Loc.reg .r1).readInt .w sv = .ok 0xB000#16 ∧ ∀ v : Word16, ∃ t, (Loc.reg .r1).writeInt .w v sv = .ok t :=
  ⟨rfl, rfl, rfl, fun _ => ⟨_, rfl⟩⟩

theorem test_met_CompareResult : ∃ s1, readInt .d (.plain .tos) sv = .ok (0#32, s1) ∧ readInt .d (r .r4) s1 = .ok (0xFFFF#32, s1) :=
  ⟨_, rfl, rfl⟩

theorem test_met_MoveResult : readInt .b (r .r4) sv = .ok (0xFF#8, sv) ∧ readInt .w (r .r4) sv = .ok (0xFFFF#16, sv) ∧
    readInt .d (r .r4) sv = .ok (0xFFFF#32, sv) ∧ (∀ v : Word16, ∃ t, writeInt .w (.plain .tos) v sv = .ok t) ∧
    (∀ v : Dword, ∃ t, writeInt .d (r .r1) v sv = .ok t) ∧ (∀ v : Byte, ∃ t, writeInt .b (r .r1) v sv = .ok t) ∧
    place (.plain (.space .pc (.one 0x40#7))) sv = .ok (.mem 0xFC0#32) := by
  and_intros <;> first | decide +kernel | rfl | exact ⟨_, rfl⟩ | (intros; exact ⟨_, rfl⟩)

theorem test_met_UnaryResult : let s := withRegs 0x80#32 0x7F#32 0#32 0#32 0#32 0#32 0#32 0#32
    readInt .b (r .r0) s = .ok (0x80#8, s) ∧ readInt .b (r .r1) s = .ok (0x7F#8, s) ∧ (0x80#8).toInt = -(2 : Int) ^ (lenBits .b - 1) ∧
      (0x7F#8).toInt ≠ -(2 : Int) ^ (lenBits .b - 1) ∧ ∀ (v : Byte) (f : State), ∃ t, writeInt .b (r .r2) v f = .ok t := by
  dsimp only
  and_intros <;> first | decide +kernel | rfl | exact ⟨_, rfl⟩ | (intros; exact ⟨_, rfl⟩)

-- -7 and 2: the product, both quotients, both remainders; and -128 by -1.
theorem test_met_MultiplyDivideResult : let s := withRegs 2#32 0xF9#32 0xFF#32 0x80#32 0#32 0#32 0#32 0#32
    readInt .b (r .r0) s = .ok (2#8, s) ∧ place (r .r1) s = .ok (.reg .r1) ∧ (Loc.reg .r1).readInt .b s = .ok 0xF9#8 ∧
      (0xF2#8).toNat = (2#8).toNat * (0xF9#8).toNat % 2 ^ lenBits .b ∧ (0xFD#8).toInt = (0xF9#8).toInt.tdiv (2#8).toInt ∧
      (0xFC#8).toInt = (0xF9#8).toInt.fdiv (2#8).toInt ∧ (0xFF#8).toInt = (0xF9#8).toInt.tmod (2#8).toInt ∧
      (1#8).toInt = (0xF9#8).toInt.fmod (2#8).toInt ∧ readInt .b (r .r2) s = .ok (0xFF#8, s) ∧ (0xFF#8).toInt = -1 ∧
      (Loc.reg .r3).readInt .b s = .ok 0x80#8 ∧ (0x80#8).toInt = -(2 : Int) ^ (lenBits .b - 1) ∧
      ∀ (l : Reg) (v : Byte) (f : State), ∃ t, (Loc.reg l).writeInt .b v f = .ok t := by
  dsimp only
  and_intros <;> first | decide +kernel | rfl | exact ⟨_, rfl⟩ | (intros; exact ⟨_, rfl⟩)

-- FE hex times 3; 1FE hex by FF hex (quotient 2) in the register pair R0, R1; 300 hex by 3 (quotient 100 hex, which does not fit)
-- in the pair R4, R5.
theorem test_met_ExtendedResult : let s := withRegs 0xFE#32 1#32 3#32 0xFF#32 0#32 3#32 0#32 0#32
    readInt .b (r .r2) s = .ok (3#8, s) ∧ readInt .b (r .r3) s = .ok (0xFF#8, s) ∧ place (r .r0) s = .ok (.reg .r0) ∧
      readPair .b (.reg .r0) s = .ok (0xFE#8, 1#8) ∧ (0xFA#8).toNat + 2 ^ lenBits .b * (2#8).toNat = (0xFE#8).toNat * (3#8).toNat ∧
      (0xFE#8).toNat + 2 ^ lenBits .b * (1#8).toNat = (2#8).toNat * (0xFF#8).toNat + (0#8).toNat ∧
      readPair .b (.reg .r4) s = .ok (0#8, 3#8) ∧ (3#8).toNat * 2 ^ lenBits .b ≤ (0#8).toNat + 2 ^ lenBits .b * (3#8).toNat ∧
      ∀ (p q : Byte) (f : State), (∃ t, writePair .b (.reg .r0) p q f = .ok t) ∧ ∃ t, writePair .b (.reg .r4) p q f = .ok t := by
  dsimp only
  and_intros <;> first | decide +kernel | rfl | exact ⟨_, rfl⟩ | (intros; constructor <;> exact ⟨_, rfl⟩)

-- Counts 8, -8 and 9 on the byte 81 hex.
theorem test_met_ShiftResult : let s := withRegs 8#32 0xF8#32 9#32 0x81#32 0#32 0#32 0#32 0#32
    readInt .b (r .r0) s = .ok (8#8, s) ∧ readInt .b (r .r1) s = .ok (0xF8#8, s) ∧ readInt .b (r .r2) s = .ok (9#8, s) ∧
      place (r .r3) s = .ok (.reg .r3) ∧ (Loc.reg .r3).readInt .b s = .ok 0x81#8 ∧ (8#8).toInt.natAbs ≤ lenBits .b ∧
      (0xF8#8).toInt.natAbs ≤ lenBits .b ∧ lenBits .b < (9#8).toInt.natAbs ∧
      ((0#8).toNat : Int) = ((0x81#8).toNat : Int) * 2 ^ (8#8).toInt.natAbs % 2 ^ lenBits .b ∧
      ((0xFF#8).toInt - (0x81#8).toInt / 2 ^ (0xF8#8).toInt.natAbs) % 2 ^ lenBits .b = 0 ∧
      (∀ k < lenBits .b, (0x81#8).getLsbD k = (0x81#8).getLsbD (((k : Int) + (8#8).toInt) % lenBits .b).toNat) ∧
      ∀ (v : Byte) (f : State), ∃ t, (Loc.reg .r3).writeInt .b v f = .ok t := by
  dsimp only
  and_intros <;> first | decide +kernel | rfl | exact ⟨_, rfl⟩ | (intros; exact ⟨_, rfl⟩)

-- 45 and 99 with the carry set; 0A hex and 45.
theorem test_met_DecimalResult : let s := (withRegs 0x99#32 0x45#32 0x0A#32 0#32 0#32 0#32 0#32 0#32).setFlag .c true
    99 < 10 ^ (lenBits .b / 4) ∧ readInt .b (r .r0) s = .ok (BitVec.ofNat _ (bcdDigits (lenBits .b / 4) 99), s) ∧
      place (r .r1) s = .ok (.reg .r1) ∧ (Loc.reg .r1).readInt .b s = .ok (BitVec.ofNat _ (bcdDigits (lenBits .b / 4) 45)) ∧
      readInt .b (r .r2) s = .ok (0x0A#8, s) ∧ (∃ k < lenBits .b / 4, 9 < (0x0A#8).toNat / 16 ^ k % 16 ∨ 9 < (0x45#8).toNat / 16 ^ k % 16) ∧
      ∀ (v : Byte) (f : State), ∃ t, (Loc.reg .r1).writeInt .b v f = .ok t := by
  dsimp only
  and_intros <;> first | decide +kernel | rfl | exact ⟨_, rfl⟩ | (intros; exact ⟨_, rfl⟩)

-- Offset -1: bit 31 of a register, bit 7 of the byte before the base.
theorem test_met_BitResult : let s := withRegs 0xFFFFFFFF#32 0x80000000#32 0xA000#32 0#32 0#32 0#32 0#32 0#32
    readInt .d (r .r0) s = .ok (0xFFFFFFFF#32, s) ∧ place (r .r1) s = .ok (.reg .r1) ∧ ((31 : Nat) : Int) = (0xFFFFFFFF#32).toInt % 32 ∧
      (s.reg .r1).getLsbD 31 = true ∧ place (.plain (.regRel .r2 (.one 0#7))) s = .ok (.mem 0xA000#32) ∧
      0x9FFF#32 = 0xA000#32 + BitVec.ofInt 32 ((0xFFFFFFFF#32).toInt / 8) ∧ ((7 : Nat) : Int) = (0xFFFFFFFF#32).toInt % 8 ∧
      (0x9FFF#32).toNat < 2 ^ 24 ∧ Memory.read s.mem (0x9FFF#32).toNat = 0#8 ∧ (0#8).getLsbD 7 = false := by
  dsimp only
  and_intros <;> decide +kernel

-- Bit 7 found from 7 on, no bit found from 7 on, and a start of 8.
theorem test_met_FindConvertIndexResult : let s := withRegs 0x80#32 7#32 0x7F#32 8#32 0#32 0#32 0#32 0#32
    readInt .b (r .r0) s = .ok (0x80#8, s) ∧ place (r .r1) s = .ok (.reg .r1) ∧ (Loc.reg .r1).readInt .b s = .ok 7#8 ∧
      (0x80#8).getLsbD 7 = true ∧ readInt .b (r .r2) s = .ok (0x7F#8, s) ∧ (7#8).toNat < lenBits .b ∧ (0x7F#8).getLsbD 7 = false ∧
      (Loc.reg .r3).readInt .b s = .ok 8#8 ∧ lenBits .b ≤ (8#8).toNat ∧
      (∀ (v : Byte) (f : State), (∃ t, (Loc.reg .r1).writeInt .b v f = .ok t) ∧ ∃ t, (Loc.reg .r3).writeInt .b v f = .ok t) ∧
      place (.plain (.absolute (.one 8#7))) s = .ok (.mem 8#32) ∧ (∃ t, writeInt .d (r .r3) (8#32 * 8#32 + s.reg .r1) s = .ok t) ∧
      (0x408#32).toNat = ((s.reg .r1).toNat * ((0x80#8).toNat + 1) + (0x81#8).toNat) % 2 ^ 32 := by
  dsimp only
  and_intros <;> first | decide +kernel | rfl | exact ⟨_, rfl⟩ | (intros; constructor <;> exact ⟨_, rfl⟩)

-- Bounds 5 (upper) and -3 (lower) at A000; -3 is inside, -4 is not.
theorem test_met_CheckResult : let s := { withBytes 0xA000 [5#8, 0xFD#8] with regs := ⟨0xA000#32, 0xFD#32, 0xFC#32, 0#32, 0#32, 0#32, 0#32, 0#32⟩ }
    place (.plain (.regRel .r0 (.one 0#7))) s = .ok (.mem 0xA000#32) ∧ (Loc.mem 0xA000#32).readInt .b s = .ok 5#8 ∧
      (Loc.mem (0xA000#32 + BitVec.ofNat 32 IntLen.b.bytes)).readInt .b s = .ok 0xFD#8 ∧ readInt .b (r .r1) s = .ok (0xFD#8, s) ∧
      readInt .b (r .r2) s = .ok (0xFC#8, s) ∧ (0xFD#8).toInt ≤ (0xFD#8).toInt ∧ ¬(0xFD#8).toInt ≤ (0xFC#8).toInt := by
  dsimp only
  and_intros <;> decide +kernel

-- A field of 25 bits at bit 7 of 0(R0), short form; one of 26 bits there, which does not lie in one double-word.
theorem test_met_FieldResult_short : let s := withRegs 0xA000#32 0x80000000#32 0xFFFFFFFF#32 1#32 0#32 0#32 0#32 0#32
    (7#3).setWidth 32 = 7#32 ∧ (24#5).toNat + 1 = 25 ∧ 7 + 25 ≤ 32 ∧ 32 < 7 + ((25#5).toNat + 1) ∧ ((7 : Nat) : Int) = (7#32).toInt % 8 ∧
      place (.plain (.regRel .r0 (.one 0#7))) s = .ok (.mem 0xA000#32) ∧ (Loc.mem (0xA000#32 + BitVec.ofInt 32 ((7#32).toInt / 8))).readInt .d s = .ok 0#32 ∧
      (∀ j < 32, (0#32).getLsbD j = (decide (j < 25) && (0#32).getLsbD (7 + j))) ∧ readInt .d (r .r3) s = .ok (1#32, s) ∧
      (∀ j < 32, (0x80#32).getLsbD j = if 7 ≤ j ∧ j < 7 + 25 then (1#32).getLsbD (j - 7) else (0#32).getLsbD j) ∧
      ∀ v : Dword, (∃ t, (Loc.mem 0xA000#32).writeInt .d v s = .ok t) ∧ ∃ t, (Loc.mem 0xA000#32).writeInt .d v (drawn s) = .ok t := by
  dsimp only
  and_intros <;> first | decide +kernel | rfl | exact ⟨_, rfl⟩ | (intros; constructor <;> exact ⟨_, rfl⟩)

-- A field of 1 bit at bit 31 of R1, long form; fields of 2 bits and of none there.
theorem test_met_FieldResult_long : let s := withRegs 0xA000#32 0x80000000#32 0xFFFFFFFF#32 1#32 0#32 0#32 0#32 0#32
    Disp.val (.one 1#7) = 1#32 ∧ s.reg .r2 = 0xFFFFFFFF#32 ∧ ((31 : Nat) : Int) = (0xFFFFFFFF#32).toInt % 32 ∧ 31 + 1 ≤ 32 ∧
      32 < 31 + (Disp.val (.one 2#7)).toNat ∧ (Disp.val (.one 0#7)).toNat < 1 ∧
      place (r .r1) s = .ok (.reg .r1) ∧ (Loc.reg .r1).readInt .d s = .ok 0x80000000#32 ∧ readInt .d (r .r3) s = .ok (1#32, s) ∧
      (∀ j < 32, (1#32).getLsbD j = (decide (j < 1) && (0x80000000#32).getLsbD (31 + j))) ∧
      (∀ j < 32, (0x80000000#32).getLsbD j = if 31 ≤ j ∧ j < 31 + 1 then (1#32).getLsbD (j - 31) else (0x80000000#32).getLsbD j) ∧
      ∀ (v : Dword) (f : State), (∃ t, (Loc.reg .r1).writeInt .d v f = .ok t) ∧ ∃ t, writeInt .d (r .r3) v f = .ok t := by
  dsimp only
  and_intros <;> first | decide +kernel | rfl | exact ⟨_, rfl⟩ | (intros; constructor <;> exact ⟨_, rfl⟩)

theorem test_met_ConditionStoreDedicated : sv.flag .u = false ∧ su.flag .u = true ∧ AReg.mod ∉ [AReg.psr, .intbase] ∧
    (∀ v : Word16, ∃ t, writeInt .w (r .r1) v sv = .ok t) ∧ ∀ v : Byte, ∃ t, writeInt .b (.plain .tos) v su = .ok t := by
  and_intros <;> first | decide +kernel | rfl | exact ⟨_, rfl⟩ | (intros; exact ⟨_, rfl⟩)

theorem test_met_LoadDedicated : readInt .b (r .r4) sv = .ok (0xFF#8, sv) ∧ readInt .d (r .r4) su = .ok (0xFFFF#32, su) ∧
    sv.flag .u = false ∧ AReg.upsr ∉ [AReg.psr, .intbase] := ⟨rfl, rfl, by decide +kernel, by decide⟩

-- Two elements of four bytes that end at the top of memory, and an overlapping block.
theorem test_met_BlockResult : Disp.nonneg (.one 1#7) = true ∧ 8 = ((Disp.val (.one 1#7)).toNat + 1) * IntLen.d.bytes ∧
    place (.plain (.regRel .r0 (.one 0#7))) sv = .ok (.mem 0xA000#32) ∧ place (.plain (.absolute (.four 0xFFFFF8#30))) sv = .ok (.mem 0xFFFFF8#32) ∧
    Fits 0xA000#32 8 ∧ Fits 0xFFFFF8#32 8 ∧ (0xA000#32).toNat + 8 ≤ (0xFFFFF8#32).toNat ∧
    place (.plain (.regRel .r0 (.one 1#7))) sv = .ok (.mem 0xA001#32) ∧ Fits 0xA001#32 8 := by
  and_intros <;> decide +kernel

-- Two words down from the last of memory; translated bytes from a table that ends with memory, apart from both strings.
theorem test_met_StringResult : let s := withRegs 2#32 0xFFFFFE#32 0xA000#32 0x00FFFF00#32 0#32 0#32 0#32 0#32
    (∀ k < (s.reg .r0).toNat, Fits (s.reg .r1 + BitVec.ofNat 32 k * -BitVec.ofNat 32 IntLen.w.bytes) IntLen.w.bytes) ∧
      (∀ k < (s.reg .r0).toNat, Fits (s.reg .r2 + BitVec.ofNat 32 k * -BitVec.ofNat 32 IntLen.w.bytes) IntLen.w.bytes) ∧
      (∀ j < (s.reg .r0).toNat, ∀ k < (s.reg .r0).toNat, Apart (s.reg .r1 + BitVec.ofNat 32 j * -BitVec.ofNat 32 IntLen.w.bytes)
        IntLen.w.bytes (s.reg .r2 + BitVec.ofNat 32 k * -BitVec.ofNat 32 IntLen.w.bytes) IntLen.w.bytes) ∧
      (∀ k < (s.reg .r0).toNat, Fits (s.reg .r1 + BitVec.ofNat 32 k * BitVec.ofNat 32 IntLen.b.bytes) IntLen.b.bytes) ∧
      (∀ j < (s.reg .r0).toNat, ∀ k < (s.reg .r0).toNat, Apart (s.reg .r1 + BitVec.ofNat 32 j * BitVec.ofNat 32 IntLen.b.bytes)
        IntLen.b.bytes (s.reg .r2 + BitVec.ofNat 32 k * BitVec.ofNat 32 IntLen.b.bytes) IntLen.b.bytes) ∧
      (∀ k < (s.reg .r0).toNat, Apart (s.reg .r3) 256 (s.reg .r2 + BitVec.ofNat 32 k * BitVec.ofNat 32 IntLen.b.bytes) 1) ∧
      Fits (s.reg .r3) 256 := by decide +kernel

-- Each way a string ends: counted out, stopped at its first element, and unequal there.
theorem test_met_StringResult_ends : let s := { withBytes 0xA000 [7#8, 7#8] with regs := ⟨2#32, 0xA000#32, 0xB000#32, 0xC000#32, 7#32, 0#32, 0#32, 0#32⟩ }
    StopsAt .b .untilMatch s (sourceElement .b false 1#32 s 0) ∧ ¬StopsAt .b .whileMatch s (sourceElement .b false 1#32 s 1) ∧
      ¬StopsAt .b .none s (sourceElement .b true 1#32 s 0) ∧ sourceElement .b false 1#32 s 0 ≠ elementAt .b s (s.reg .r2) ∧
      StopsAt .b .whileMatch s (sourceElement .b true 1#32 s 0) := by
  dsimp only [StopsAt]
  and_intros <;> decide +kernel

theorem test_met_IndexedBranchResult : let s := withRegs 1#32 2#32 0#32 0#32 0#32 0#32 0#32 0#32
    place (r .r0) s = .ok (.reg .r0) ∧ (Loc.reg .r0).readInt .b s = .ok 1#8 ∧ 1#(lenBits .b) + (0xF#4).signExtend (lenBits .b) = 0#_ ∧
      (Loc.reg .r1).readInt .b s = .ok 2#8 ∧ 2#(lenBits .b) + (0xF#4).signExtend (lenBits .b) ≠ 0#_ ∧
      (∀ (l : Reg) (v : Byte) (f : State), ∃ t, (Loc.reg l).writeInt .b v f = .ok t) ∧
      readInt .b (r .r0) { s with unflushed := [] } = .ok (1#8, { s with unflushed := [] }) ∧
      place (.plain (.regRel .r0 (.one 0x40#7))) s = .ok (.mem 0xFFFFFFC1#32) := by
  dsimp only
  and_intros <;> first | decide +kernel | rfl | exact ⟨_, rfl⟩ | (intros; exact ⟨_, rfl⟩)

theorem test_met_CallReturn : (∃ t, ({ sv with unflushed := [] }).push32 (sv.pc + BitVec.ofNat 32 (1 + (Disp.encode (.one 0x40#7)).length)) = .ok t) ∧
    place (.plain (.regRel .r0 (.one 0#7))) sv = .ok (.mem 0xA000#32) ∧
    ∃ t, ({ sv with unflushed := [] }).push32 (sv.pc + BitVec.ofNat 32 (Instr.jsr (.plain (.regRel .r0 (.one 0#7)))).size) = .ok t :=
  ⟨⟨_, rfl⟩, rfl, _, rfl⟩

theorem test_met_ExternalCall : (∃ q d u t sb base sb', sv.load32 (sv.mod.setWidth 32 + 4#32) = .ok q ∧ sv.load32 (q + 4#32 * Disp.val (.one 1#7)) = .ok d ∧
      ({ drawn sv with unflushed := [] }).push32 (openValue 16 sv ++ sv.mod) = .ok u ∧
      u.push32 (sv.pc + BitVec.ofNat 32 (Instr.cxp (.one 1#7)).size) = .ok t ∧ t.load32 ((d.setWidth 16).setWidth 32) = .ok sb ∧
      t.load32 ((d.setWidth 16).setWidth 32 + 8#32) = .ok base ∧ t.load32 (sv.mod.setWidth 32) = .ok sb') ∧
    place (.plain (.space .fp (.one 0#7))) sv = .ok (.mem 0x2000#32) ∧ sv.load32 0x2000#32 = .ok 0#32 ∧
    ∃ u t, ({ drawn sv with unflushed := [] }).push32 (openValue 16 sv ++ sv.mod) = .ok u ∧
      u.push32 (sv.pc + BitVec.ofNat 32 (Instr.cxpd (.plain (.space .fp (.one 0#7)))).size) = .ok t :=
  ⟨⟨_, _, _, _, _, _, _, rfl, rfl, rfl, rfl, rfl, rfl, rfl⟩, rfl, rfl, _, _, rfl, rfl⟩

theorem test_met_SaveRestore : (∀ k < 8, (0x84#8).getLsbD k = (0x21#8).getLsbD (7 - k)) ∧ 32 ≤ ({ sv with sp0 := 32#32 }).sp.toNat ∧
    ({ sv with sp0 := 0x1000000#32 }).sp.toNat ≤ 2 ^ 24 := by decide +kernel

theorem test_met_EnterExit : (∀ k < 8, (0xFF#8).getLsbD k = (0xFF#8).getLsbD (7 - k)) ∧ 0 ≤ (Disp.val (.one 0x3F#7)).toInt ∧
    (Disp.val (.one 0x3F#7)).toNat + 36 ≤ ({ sv with sp0 := 99#32 }).sp.toNat ∧ ({ sv with sp0 := 99#32 }).sp.toNat ≤ 2 ^ 24 := by
  decide +kernel

theorem test_met_StatusResult : readInt .b (r .r4) su = .ok (0xFF#8, su) ∧ readInt .w (r .r4) { sv with unflushed := [] } = .ok (0xFFFF#16, sv) ∧
    readInt .d (r .r4) { sv with unflushed := [0x1000] } = .ok (0xFFFF#32, { sv with unflushed := [0x1000] }) ∧
    sv.flag .u = false ∧ ({ sv with waiting := true }).waiting = true := ⟨rfl, rfl, rfl, by decide +kernel, rfl⟩

theorem test_met_ExceptionEntry : Exception.und ∉ [Exception.nvi, .nmi] ∧ su.psr &&& ~~~psrDefined = 0#16 ∧ 8 ≤ ({ su with sp0 := 8#32 }).sp0.toNat ∧
    ({ su with sp0 := 0x1000000#32 }).sp0.toNat ≤ 2 ^ 24 ∧ Fits (({ su with intbase := 0xFFFFD4#32 }).intbase + 4#32 * Exception.und.vector) 4 := by
  decide +kernel

theorem test_met_TrapInstructions : (∃ t, takeException .svc su.pc su = .ok t) ∧ (∃ t, takeException .bpt su.pc su = .ok t) ∧
    (su.setFlag .f true).flag .f = true ∧ (∃ t, takeException .flg su.pc (su.setFlag .f true) = .ok t) ∧ su.flag .f = false := by
  and_intros <;> first | decide +kernel | rfl | exact ⟨_, rfl⟩

theorem test_met_RemovedTrap : ∃ t, takeException .und sv.pc sv = .ok t := ⟨_, rfl⟩

theorem test_met_OperandAndModeTraps : su.flag .u = true ∧ (∃ t, takeException .ill su.pc su = .ok t) ∧
    readInt .w (r .r2) su = .ok (0#_, su) ∧ ∃ t, takeException .dvz su.pc su = .ok t :=
  ⟨by decide +kernel, ⟨_, rfl⟩, rfl, _, rfl⟩

theorem test_met_ReturnFromTrap : (∃ t, takeException .svc 0x1000#32 su = .ok t) ∧ (∃ t, takeException .svc 0x1000#32 sv = .ok t) ∧
    Disp.val (.one 0#7) = 0#32 ∧ su.flag .s = true ∧ sv.flag .s = false := by
  and_intros <;> first | decide +kernel | rfl | exact ⟨_, rfl⟩

/-- `sv` with the floating-point unit enabled. -/
def sf : State := { sv with cfg := 2#4 }

theorem test_met_FloatResult : sf.cfg.getLsbD 1 = true ∧ readFloat .float (im 0x3F800000#64) sf = .ok (0x3F800000#64, sf) ∧
    readFloat .long (r .r3) sf = .ok (0#64, sf) ∧ place (r .r1) sf = .ok (.reg .r1) ∧ (Loc.reg .r1).readFloat .float sf = .ok 0#64 ∧
    (∀ (v : Quad) (fl : FLen) (f : State), ∃ t, (Loc.reg .r1).writeFloat fl v f = .ok t) ∧
    (∀ (v : Quad) (fl : FLen) (f : State), ∃ t, writeFloat fl (r .r1) v f = .ok t) ∧ readInt .d (r .r4) sf = .ok (0xFFFF#32, sf) ∧
    (∀ (v : Dword) (f : State), ∃ t, writeInt .d (r .r1) v f = .ok t) := by
  and_intros <;> first | decide +kernel | rfl | exact ⟨_, rfl⟩ | (intros; exact ⟨_, rfl⟩)

theorem test_met_FloatDisabled : sv.cfg.getLsbD 1 = false ∧ ∃ t, takeException .und sv.pc sv = .ok t := ⟨by decide +kernel, _, rfl⟩

-- One word, shifts 0 and 15; the destination ends at the top of memory.
theorem test_met_BbOneWord : let s := { (withRegs 0xA000#32 0xFFFFFC#32 0#32 1#32 0xFFFF#32 0xFFFF#32 0#32 0#32) with mem := [(0xF000, 1#8)] }
    let s' := (s.setReg .r2 15#32).setFlag .l true
    ((s.reg .r2).setWidth 8).toNat = 0 ∧ s.flag .l = decide (0 ≠ 0) ∧ ((s'.reg .r2).setWidth 8).toNat = 15 ∧ s'.flag .l = decide (15 ≠ 0) ∧
      (s.reg .r4).toNat < 2 ^ 16 ∧ (s.reg .r5).toNat < 2 ^ 16 ∧ s.flag .j = false ∧ s.flag .k = false ∧ s.reg .r3 = 1#32 ∧
      s.load16 s.sp = .ok 1#16 ∧ 4 ≤ s.sp.toNat ∧ Apart (s.reg .r0) 2 (s.sp - 4#32) 4 ∧ Apart (s.reg .r1) 4 (s.sp - 4#32) 4 ∧
      s.load16 (s.reg .r0) = .ok 0#16 ∧ s.load32 (s.reg .r1) = .ok 0#32 := by
  dsimp only
  and_intros <;> decide +kernel

/-- What the clause on rectangles of BbOneWord wants of a state, for one function. -/
def rectangleReady (fn : BbFn) (da inv : Bool) (sh : Nat) (s : State) : Bool :=
  let step : Dword := if da then 0xFFFFFFFE#32 else 2#32
  match s.load16 s.sp with
  | .error _ => false
  | .ok width =>
    let n := width.toNat
    let moves := if n = 1 then 1 else n - 1
    let src := fun j k => s.reg .r0 + wordOffset moves step (s.reg .r6) j k
    let dst := fun j k => s.reg .r1 + wordOffset moves step (s.reg .r7) j k
    decide (n ≠ 0) && decide (s.reg .r3 ≠ 0#32) &&
      decide (∀ j < (s.reg .r3).toNat, ∀ k < n, Apart (src j k) 2 (s.sp - 4#32) 4 ∧ Apart (dst j k) (bbBytes fn sh) (s.sp - 4#32) 6) &&
      (forRectangle (s.reg .r3).toNat n (fun j k => bbStepAt fn inv sh (bbMaskAt fn n k s) (src j k) (dst j k)) s).isOk

-- Two lines of three words (upwards, shift 15), of one word (downwards, inverted), and of two (BBFOR with shift 0).
theorem test_met_BbOneWord_rectangle : let s := withRegs 0xA000#32 0xB000#32 15#32 2#32 0xFF00#32 0xFF#32 0x10#32 0xFFFFFF00#32
    rectangleReady .stod false false 15 { s with mem := [(0xF000, 3#8)] } = true ∧
      rectangleReady .and true true 15 { s with mem := [(0xF000, 1#8)] } = true ∧
      rectangleReady .fastOr false false 0 ({ s with mem := [(0xF000, 2#8)] }.setReg .r2 0#32) = true := by
  dsimp only
  and_intros <;> decide +kernel

theorem test_met_BbFrame : (∃ t, exec (.bbor false false) { sv with mem := [(0xF000, 1#8)] } = .next t) ∧
    ∀ j < 1, ∀ k < 1, Apart (sv.reg .r1 + wordOffset 1 2#32 (sv.reg .r7) j k) 4 sv.sp 2 := by
  and_intros <;> first | decide +kernel | rfl | exact ⟨_, rfl⟩

theorem test_met_BitwtResult : let s := (sv.setReg .r2 15#32).setFlag .l true
    ((sv.reg .r2).setWidth 8).toNat = 0 ∧ sv.flag .l = decide (0 ≠ 0) ∧ ((s.reg .r2).setWidth 8).toNat = 15 ∧ s.flag .l = decide (15 ≠ 0) ∧
      sv.load16 (sv.reg .r0) = .ok 0#16 ∧ sv.load 2 (sv.reg .r1) = .ok 0#64 ∧ s.load16 (s.reg .r0) = .ok 0#16 ∧ s.load 4 (s.reg .r1) = .ok 0#64 := by
  dsimp only
  and_intros <;> decide +kernel

theorem test_met_ExtbltOneWord : let s := withRegs 0xA000#32 0xFFFFFE#32 0xFFFFFFFE#32 1#32 0xFFFFFFFE#32 0#32 2#32 0xFFFFFFFE#32
    (s.reg .r4 = 2#32 ∨ s.reg .r4 = 0xFFFFFFFE#32) ∧ s.reg .r2 = s.reg .r4 ∧ s.reg .r3 = 1#32 ∧ (s.reg .r0).toNat % 2 = 0 ∧
      (s.reg .r1).toNat % 2 = 0 ∧ (s.reg .r6).toNat % 2 = 0 ∧ (s.reg .r7).toNat % 2 = 0 ∧ 4 ≤ s.sp.toNat ∧ s.sp.toNat ≤ 2 ^ 24 ∧
      Apart (s.reg .r0) 2 (s.sp - 4#32) 4 ∧ Apart (s.reg .r1) 2 (s.sp - 4#32) 4 ∧ s.load16 (s.reg .r0) = .ok 0#16 ∧
      s.load16 (s.reg .r1) = .ok 0#16 ∧ ∃ w b, Config.bpuResult s.bpu (if s.flag .l then [0#16] else [0#16, 0#16]) 0#16 = (w, b) := by
  dsimp only
  and_intros <;> first | decide +kernel | rfl | exact ⟨_, _, rfl⟩

-- Two lines of two words going down.
theorem test_met_ExtbltOneWord_rectangle : let s := withRegs 0xA002#32 0xB002#32 0xFFFFFFFC#32 2#32 0xFFFFFFFE#32 0#32 0x10#32 0x20#32
    let src := fun j k => s.reg .r0 + wordOffset 1 (s.reg .r4) (s.reg .r6) j k
    let dst := fun j k => s.reg .r1 + wordOffset 1 (s.reg .r4) (s.reg .r7) j k
    s.reg .r2 ≠ 0#32 ∧ (s.reg .r2).toNat % 2 = 0 ∧ ((s.reg .r2).toInt < 0 ↔ (s.reg .r4).toInt < 0) ∧ 2 = (s.reg .r2).toInt.natAbs / 2 ∧
      (∀ j < 2, ∀ k < 2, Apart (src j k) 2 (s.sp - 4#32) 4 ∧ Apart (dst j k) 2 (s.sp - 4#32) 4) ∧
      ∃ u, forRectangle 2 2 (fun j k => bpuStepAt (k == 0 && !s.flag .l) (src j k) (dst j k)) s = .ok u := by
  dsimp only
  and_intros <;> first | decide +kernel | rfl | exact ⟨_, rfl⟩

-- Two double-words going down that overlap, the second at the top of memory; and none.
theorem test_met_MovmpResult : let s := withRegs 0xFFFFFC#32 0xFFFFFFFE#32 2#32 0x12345678#32 0#32 0#32 0#32 0#32
    (∀ k < (s.reg .r2).toNat, Fits (s.reg .r0 + BitVec.ofNat 32 k * s.reg .r1) 4) ∧
      (∃ a, InRange a (s.reg .r0) 4 ∧ ¬InRange a (s.reg .r0 + 1#32 * s.reg .r1) 4) ∧ (sv.reg .r2).toNat = 0 :=
  ⟨by decide +kernel, ⟨0xFFFFFE, by decide +kernel⟩, by decide +kernel⟩

theorem test_met_SbitsResult : let s := withRegs 0xA000#32 0xFFFFFFFF#32 25#32 0x8000#32 0#32 0#32 0#32 0#32
    let s' := s.setReg .r2 26#32
    0x9FFF#32 = s.reg .r0 + BitVec.ofInt 32 ((s.reg .r1).toInt / 8) ∧ s.load32 0x9FFF#32 = .ok 0#32 ∧ (s.reg .r2).toNat ≤ 25 ∧
      0x83E4#32 = s.reg .r3 + 4#32 * (s.reg .r2 + 32#32 * BitVec.ofInt 32 ((s.reg .r1).toInt % 8)) ∧ s.load32 0x83E4#32 = .ok 0#32 ∧
      25 < (s'.reg .r2).toNat ∧ s'.load32 0x9FFF#32 = .ok 0#32 := by
  dsimp only
  and_intros <;> decide +kernel

theorem test_met_SbitpsResult : let s := withRegs 0xA000#32 0xFFFFFFFF#32 3#32 0xFFFFFFF8#32 0#32 0#32 0#32 0#32
    ∀ k < (s.reg .r2).toNat, (s.reg .r0 + BitVec.ofInt 32 ((s.reg .r1 + BitVec.ofNat 32 k * s.reg .r3).toInt / 8)).toNat < 2 ^ 24 := by
  decide +kernel

-- R1 = -1 below R4 = 2 (three bits to look at), and R1 = R4.
theorem test_met_TbitsResult : let s := withRegs 0xA000#32 0xFFFFFFFF#32 0#32 0xFF#32 2#32 0#32 0#32 0#32
    let s' := s.setReg .r1 2#32
    (∀ k : Nat, (s.reg .r1).toInt + k < (s.reg .r4).toInt →
      (s.reg .r0 + BitVec.ofInt 32 ((s.reg .r1 + BitVec.ofNat 32 k).toInt / 8)).toNat < 2 ^ 24) ∧ (s.reg .r1).toInt < (s.reg .r4).toInt ∧
      (∀ k : Nat, ¬(s'.reg .r1).toInt + k < (s'.reg .r4).toInt) ∧ (s'.reg .r4).toInt ≤ (s'.reg .r1).toInt := by
  refine ⟨fun k hk => ?_, by decide +kernel, fun k hk => ?_, by decide +kernel⟩
  · have : k < 3 := by
      have h1 : (0xFFFFFFFF#32).toInt = -1 := by decide
      have h2 : (2#32).toInt = 2 := by decide
      simp only [withRegs, State.reg, h1, h2] at hk
      omega
    clear hk
    revert k
    decide +kernel
  · have h2 : (2#32).toInt = 2 := by decide
    simp only [withRegs, State.reg, State.setReg, h2] at hk
    omega

theorem test_met_GraphicsRefusals_bb : let s := withRegs 0#32 0#32 15#32 1#32 0xFFFF#32 0xFFFF#32 0#32 0#32
    let s' := s.setFlag .l true
    ((s.reg .r2).setWidth 8).toNat = 15 ∧ 15 < (((s.setReg .r2 16#32).reg .r2).setWidth 8).toNat ∧ s.flag .l ≠ decide (15 ≠ 0) ∧
      s'.flag .l = decide (15 ≠ 0) ∧ 2 ^ 16 ≤ ((s'.setReg .r4 0x10000#32).reg .r4).toNat ∧ (s'.reg .r4).toNat < 2 ^ 16 ∧ (s'.reg .r5).toNat < 2 ^ 16 ∧
      (s'.setFlag .k true).flag .k = true ∧ s'.flag .j = false ∧ s'.flag .k = false ∧ (s'.setReg .r3 0#32).reg .r3 = 0#32 ∧ s'.reg .r3 ≠ 0#32 ∧
      s'.load16 s'.sp = .ok 0#16 := by
  dsimp only
  and_intros <;> decide +kernel

theorem test_met_GraphicsRefusals_extblt : let s := withRegs 1#32 0#32 4#32 1#32 2#32 0#32 0#32 0#32
    (s.setReg .r4 4#32).reg .r4 ≠ 2#32 ∧ (s.setReg .r4 4#32).reg .r4 ≠ 0xFFFFFFFE#32 ∧ s.reg .r4 = 2#32 ∧ (s.setReg .r2 0#32).reg .r2 = 0#32 ∧
      ((s.setReg .r2 3#32).reg .r2).toNat % 2 = 1 ∧ ¬(((s.setReg .r2 0xFFFFFFFE#32).reg .r2).toInt < 0 ↔ (s.reg .r4).toInt < 0) ∧
      s.reg .r2 ≠ 0#32 ∧ (s.reg .r2).toNat % 2 = 0 ∧ ((s.reg .r2).toInt < 0 ↔ (s.reg .r4).toInt < 0) ∧ (s.setReg .r3 0#32).reg .r3 = 0#32 ∧
      s.reg .r3 ≠ 0#32 ∧ (s.reg .r0).toNat % 2 = 1 := by decide +kernel

-- Register, memory and Top of stack forms that complete.
theorem test_met_TwoOperandFrame : (∃ t, exec (.addb (r .r0) (r .r1)) sv = .next t) ∧
    (∃ t v s1 a, exec (.ord (.plain .tos) (.plain (.regRel .r0 (.one 0#7)))) sv = .next t ∧ readInt .d (.plain .tos) sv = .ok (v, s1) ∧
      place (.plain (.regRel .r0 (.one 0#7))) s1 = .ok (.mem a)) ∧ (∃ t, exec (.lshi .w (r .r2) (r .r1)) sv = .next t) :=
  ⟨⟨_, rfl⟩, ⟨_, _, _, _, rfl, rfl, rfl⟩, _, rfl⟩

theorem test_met_MoveFrame : (∃ t, exec (.movb (r .r0) (r .r1)) sv = .next t) ∧
    (∃ t v s1 a, exec (.movxbw (.plain .tos) (.plain .tos)) sv = .next t ∧ readInt .b (.plain .tos) sv = .ok (v, s1) ∧
      storeAddress (.plain .tos) IntLen.w.bytes s1 = .ok a) ∧ (∃ t, exec (.absi .w (r .r2) (.plain (.regRel .r0 (.one 0#7)))) sv = .next t) :=
  ⟨⟨_, rfl⟩, ⟨_, _, _, _, rfl, rfl, rfl⟩, _, rfl⟩

theorem test_met_CompareFrame : (∃ t, exec (.cmpd (.plain .tos) (r .r1)) sv = .next t) ∧ (∃ t, exec (.cmpqb 8#4 (r .r1)) sv = .next t) ∧
    (∃ t, exec (.tbitw (r .r2) (.plain (.regRel .r0 (.one 0#7)))) sv = .next t) := ⟨⟨_, rfl⟩, ⟨_, rfl⟩, _, rfl⟩

end Sys2Proof.Tests
end

section
/-! PROOFS about the state (O9 and O12), first part: what an operation may do to the parts of the state that the invariant and
the protection of supervisor state look at. One rule for each operation on PSR, registers, memory and operands. -/

namespace Sys2Proof.Proofs

open Sys2Proof.Machine

/-! ### The relations -/

/-- Each part of `Safety.Inv` is kept on its own, so that the parts also chain inside EXTBLT, where NBPU is asserted. -/
structure KeepsInv (s t : State) : Prop where
  mem : Memory.wf s.mem = true → Memory.wf t.mem = true
  reserved : s.psr &&& ~~~psrDefined = 0#16 → t.psr &&& ~~~psrDefined = 0#16
  unflushed : Safety.addressesWf s.unflushed = true → Safety.addressesWf t.unflushed = true
  nbpu : s.nbpu = false → t.nbpu = false

/-- The mode, the stack selection, the interrupt enable, INTBASE and CFG are as before (R438). -/
structure Confined (s t : State) : Prop where
  user : t.flag .u = s.flag .u
  stack : t.flag .s = s.flag .s
  interrupt : t.flag .i = s.flag .i
  intbase : t.intbase = s.intbase
  cfg : t.cfg = s.cfg

/-- What an unprivileged operation may do. -/
structure Ordinary (s t : State) : Prop extends KeepsInv s t, Confined s t

/-- The fields that `Ordinary` looks at. -/
def vital (s : State) : List Host.Cell × Word16 × List Nat × Bool × Dword × BitVec 4 :=
  (s.mem, s.psr, s.unflushed, s.nbpu, s.intbase, s.cfg)

theorem KeepsInv.inv {s t : State} (h : KeepsInv s t) (hs : Safety.Inv s) : Safety.Inv t := by
  obtain ⟨hm, hp, hu, hn⟩ := hs
  exact ⟨h.mem hm, h.reserved hp, h.unflushed hu, h.nbpu hn⟩

theorem KeepsInv.trans {s t u : State} (h : KeepsInv s t) (k : KeepsInv t u) : KeepsInv s u where
  mem := k.mem ∘ h.mem
  reserved := k.reserved ∘ h.reserved
  unflushed := k.unflushed ∘ h.unflushed
  nbpu := k.nbpu ∘ h.nbpu

theorem Confined.trans {s t u : State} (h : Confined s t) (k : Confined t u) : Confined s u where
  user := k.user.trans h.user
  stack := k.stack.trans h.stack
  interrupt := k.interrupt.trans h.interrupt
  intbase := k.intbase.trans h.intbase
  cfg := k.cfg.trans h.cfg

theorem Ordinary.trans {s t u : State} (h : Ordinary s t) (k : Ordinary t u) : Ordinary s u :=
  ⟨h.toKeepsInv.trans k.toKeepsInv, h.toConfined.trans k.toConfined⟩

/-- An update of other fields is ordinary. -/
theorem Ordinary.of_vital {s t : State} (h : vital t = vital s) : Ordinary s t := by
  simp only [vital, Prod.mk.injEq] at h
  obtain ⟨hm, hp, hu, hn, hi, hc⟩ := h
  have hflag : ∀ fl, t.flag fl = s.flag fl := fun fl => by rw [State.flag, State.flag, hp]
  exact ⟨⟨hm ▸ id, hp ▸ id, hu ▸ id, hn ▸ id⟩, hflag .u, hflag .s, hflag .i, hi, hc⟩

theorem Ordinary.refl (s : State) : Ordinary s s := .of_vital rfl

/-! ### PSR -/

/-- Putting a flag leaves the reserved bits of PSR alone. -/
theorem reserved_putFlag (v : Word16) (fl : Flag) (b : Bool) : putFlag v fl b &&& ~~~psrDefined = v &&& ~~~psrDefined := by
  have hd : psrDefined.getLsbD fl.bit = true := by cases fl <;> decide
  apply BitVec.eq_of_getLsbD_eq
  intro k hk
  simp only [BitVec.getLsbD_and, BitVec.getLsbD_not, getLsbD_putFlag]
  split
  · next h => simp [h, hd]
  · rfl

theorem reserved_masked (v : Word16) : v &&& psrDefined &&& ~~~psrDefined = 0#16 := by
  rw [BitVec.and_assoc, BitVec.and_not_self]; exact BitVec.and_zero

theorem keepsInv_setFlag (s : State) (fl : Flag) (b : Bool) : KeepsInv s (s.setFlag fl b) where
  mem h := h
  reserved h := by rw [psr_setFlag, reserved_putFlag, h]
  unflushed h := h
  nbpu h := h

theorem ordinary_setFlag (s : State) {fl : Flag} (b : Bool) (h : fl ∉ [Flag.u, .s, .i]) : Ordinary s (s.setFlag fl b) := by
  simp only [List.mem_cons, List.not_mem_nil, or_false, not_or] at h
  obtain ⟨hu, hs, hi⟩ := h
  exact ⟨keepsInv_setFlag s fl b, flag_setFlag_ne s b (Ne.symm hu), flag_setFlag_ne s b (Ne.symm hs),
    flag_setFlag_ne s b (Ne.symm hi), rfl, rfl⟩

theorem ordinary_setCarryOverflow (s : State) (c o : Bool) : Ordinary s (s.setCarryOverflow c o) :=
  (ordinary_setFlag s c (by decide)).trans (ordinary_setFlag _ o (by decide))

theorem ordinary_setCompare {w : Nat} (s : State) (a b : BitVec w) : Ordinary s (s.setCompare a b) :=
  ((ordinary_setFlag s _ (by decide)).trans (ordinary_setFlag _ _ (by decide))).trans (ordinary_setFlag _ _ (by decide))

/-- PSR written whole keeps its reserved bits 0. -/
theorem keepsInv_setPsr (s : State) (v : Word16) : KeepsInv s (s.setPsr v) where
  mem h := h
  reserved _ := reserved_masked v
  unflushed h := h
  nbpu h := h

/-- PSR written with its own high byte: the mode, the stack selection and the interrupt enable lie there (R28). -/
theorem ordinary_setPsr (s : State) (v : Word16) (h : ∀ k, 8 ≤ k → k < 12 → v.getLsbD k = s.psr.getLsbD k) :
    Ordinary s (s.setPsr v) := by
  refine ⟨keepsInv_setPsr s v, ?_, ?_, ?_, rfl, rfl⟩ <;>
    (rw [flag_setPsr]; exact h _ (by decide) (by decide))

/-! ### Registers, the stack pointer, memory -/

theorem ordinary_setReg (s : State) (r : Reg) (v : Dword) : Ordinary s (s.setReg r v) := .of_vital (by simp [vital])

theorem ordinary_setSp (s : State) (v : Dword) : Ordinary s (s.setSp v) := .of_vital (by simp [vital])

theorem ordinary_setPc (s : State) (v : Dword) : Ordinary s (s.setPc v) := .of_vital rfl

theorem ordinary_setLongReg (s : State) (r : Reg) (v : Quad) : Ordinary s (s.setLongReg r v) := .of_vital (by simp [vital])

theorem ordinary_setFloatReg (s : State) (fl : FLen) (r : Reg) (v : Quad) : Ordinary s (s.setFloatReg fl r v) :=
  .of_vital (by rw [setFloatReg_frame]; rfl)

theorem ordinary_drawFree (s : State) : Ordinary s s.drawFree.2 := .of_vital rfl

theorem ordinary_flushQueue (s : State) : Ordinary s s.flushQueue :=
  ⟨⟨id, id, fun _ => rfl, id⟩, rfl, rfl, rfl, rfl, rfl⟩

theorem Ordinary.advance {s t : State} (h : Ordinary s t) (i : Instr) : Ordinary s (t.advance i) :=
  h.trans (.of_vital rfl)

theorem addressesWf_iff (l : List Nat) :
    Safety.addressesWf l = true ↔ l.Pairwise (· < ·) ∧ ∀ k ∈ l, k < 2 ^ 24 := by
  simp [Safety.addressesWf]

theorem ordinary_store {s t : State} {n : Nat} {a : Dword} {v : Quad} (h : s.store n a v = .ok t) : Ordinary s t := by
  obtain ⟨hf, -⟩ := store_spec h
  have hm := wf_store h
  have hu := unflushed_store h
  rw [← addressesWf_iff, ← addressesWf_iff] at hu
  rw [hf]
  exact ⟨⟨hm, id, hu, id⟩, rfl, rfl, rfl, rfl, rfl⟩

theorem ordinary_storeByte {s t : State} {a : Dword} {b : Byte} (h : s.storeByte a b = .ok t) : Ordinary s t := by
  refine ordinary_store (n := 1) (a := a) (v := b.setWidth 64) ?_
  rw [State.store, BitVec.setWidth_setWidth_of_le b (by decide), BitVec.setWidth_eq, h]
  rfl

theorem ordinary_push32 {s t : State} {v : Dword} (h : s.push32 v = .ok t) : Ordinary s t :=
  (ordinary_setSp s _).trans (ordinary_store h)

theorem ordinary_pop32 {s t : State} {v : Dword} (h : s.pop32 = .ok (v, t)) : Ordinary s t := by
  obtain ⟨-, rfl⟩ := pop32_eq_ok.1 h
  exact ordinary_setSp s _

theorem ordinary_enterModule {s t : State} {d : Dword} (h : s.enterModule d = .ok t) : Ordinary s t := by
  obtain ⟨sb, -, base, -, rfl⟩ := enterModule_eq_ok.1 h
  exact .of_vital rfl

/-! ### Operands -/

theorem ordinary_write {l : Loc} {n : Nat} {v : Quad} {s t : State} (h : l.write n v s = .ok t) : Ordinary s t := by
  obtain ⟨-, -, hreg, hmem, -⟩ := l.write_spec h
  cases l with
  | reg r => rw [hreg r rfl]; exact ordinary_setReg s r _
  | mem a => exact ordinary_store (hmem a rfl)
  | imm w => simp [Loc.write] at h

theorem ordinary_writeLoc {l : Loc} {len : IntLen} {v : IntVal len} {s t : State} (h : l.writeInt len v s = .ok t) :
    Ordinary s t := ordinary_write h

theorem ordinary_readGen {g : Gen} {n : Nat} {s t : State} {v : Quad} (h : readGen g n s = .ok (v, t)) : Ordinary s t := by
  rw [readGen_spec h]
  split
  · exact ordinary_setSp s _
  · exact .refl s

theorem ordinary_readInt {len : IntLen} {g : Gen} {s t : State} {v : IntVal len} (h : readInt len g s = .ok (v, t)) :
    Ordinary s t := by
  rw [readInt_spec h]
  split
  · exact ordinary_setSp s _
  · exact .refl s

theorem ordinary_writeGen {g : Gen} {n : Nat} {v : Quad} {s t : State} (h : writeGen g n v s = .ok t) : Ordinary s t := by
  by_cases hg : g = .plain .tos
  · subst hg
    rw [writeGen_tos] at h
    exact (ordinary_setSp s _).trans (ordinary_store h)
  · rw [writeGen_of_ne _ _ _ _ hg, bind_eq_ok] at h
    obtain ⟨l, -, h⟩ := h
    exact ordinary_write h

theorem ordinary_writeInt {len : IntLen} {g : Gen} {v : IntVal len} {s t : State} (h : writeInt len g v s = .ok t) :
    Ordinary s t := ordinary_writeGen h

/-- A floating operand is Top of stack itself, or is read through its place. -/
theorem readFloat_of_ne (fl : FLen) (g : Gen) (s : State) (h : g ≠ .plain .tos) :
    readFloat fl g s = (place g s >>= fun l => l.readFloat fl s >>= fun v => .ok (v, s)) := by
  unfold readFloat
  split
  · exact absurd rfl h
  · rfl

theorem writeFloat_of_ne (fl : FLen) (g : Gen) (v : Quad) (s : State) (h : g ≠ .plain .tos) :
    writeFloat fl g v s = (place g s >>= fun l => l.writeFloat fl v s) := by
  unfold writeFloat
  split
  · exact absurd rfl h
  · rfl

theorem readFloat_tos (fl : FLen) (s : State) : readFloat fl (.plain .tos) s = readGen (.plain .tos) fl.bytes s := rfl

theorem writeFloat_tos (fl : FLen) (v : Quad) (s : State) :
    writeFloat fl (.plain .tos) v s = writeGen (.plain .tos) fl.bytes v s := rfl

theorem ordinary_readFloat {fl : FLen} {g : Gen} {s t : State} {v : Quad} (h : readFloat fl g s = .ok (v, t)) :
    Ordinary s t := by
  by_cases hg : g = .plain .tos
  · subst hg
    rw [readFloat_tos] at h
    exact ordinary_readGen h
  · rw [readFloat_of_ne _ _ _ hg] at h
    simp only [bind_eq_ok, Except.ok.injEq, Prod.mk.injEq] at h
    obtain ⟨l, -, w, -, -, rfl⟩ := h
    exact .refl s

theorem ordinary_writeFloatLoc {l : Loc} {fl : FLen} {v : Quad} {s t : State} (h : l.writeFloat fl v s = .ok t) :
    Ordinary s t := by
  cases l with
  | reg r =>
    cases h
    exact ordinary_setFloatReg s fl r v
  | mem a => exact ordinary_store h
  | imm w => simp [Loc.writeFloat] at h

theorem ordinary_writeFloat {fl : FLen} {g : Gen} {v : Quad} {s t : State} (h : writeFloat fl g v s = .ok t) :
    Ordinary s t := by
  by_cases hg : g = .plain .tos
  · subst hg
    rw [writeFloat_tos] at h
    exact ordinary_writeGen h
  · rw [writeFloat_of_ne _ _ _ _ hg, bind_eq_ok] at h
    obtain ⟨l, -, h⟩ := h
    exact ordinary_writeFloatLoc h

end Sys2Proof.Proofs
end

section
/-! PROOFS about the state, second part: the integer instructions, the branches and calls, the blocks and strings are
ordinary (`Ordinary`), by chaining the rules of their operations. -/

namespace Sys2Proof.Proofs

open Sys2Proof.Machine

/-! ### Integer instructions -/

theorem ordinary_addResult {w : Nat} (cin : Bool) (s : State) (a b : BitVec w) : Ordinary s (addResult cin s a b).2 :=
  ordinary_setCarryOverflow s _ _

theorem ordinary_subResult {w : Nat} (cin : Bool) (s : State) (a b : BitVec w) : Ordinary s (subResult cin s a b).2 :=
  ordinary_setCarryOverflow s _ _

theorem ordinary_absResult {w : Nat} (s : State) (a : BitVec w) : Ordinary s (absResult s a).2 := by
  unfold absResult
  split
  · exact (ordinary_drawFree s).trans (ordinary_setFlag _ true (by decide))
  · exact ordinary_setFlag s false (by decide)

theorem ordinary_decimalResult (w : Nat) (s : State) (r : Option (Nat × Bool)) : Ordinary s (decimalResult w s r).2 := by
  cases r with
  | some r => exact (ordinary_drawFree s).trans (ordinary_setCarryOverflow _ _ _)
  | none => exact ((ordinary_drawFree s).trans (ordinary_drawFree _)).trans (ordinary_setCarryOverflow _ _ _)

theorem ordinary_shiftResult {w : Nat} (left right : BitVec w → Nat → BitVec w) (s : State) (count : Byte) (v : BitVec w) :
    Ordinary s (shiftResult left right s count v).2 := by
  unfold shiftResult
  split
  · exact ordinary_drawFree s
  · split <;> exact .refl s

theorem ordinary_quotient {w : Nat} (q : Int) (s : State) : Ordinary s (quotient (w := w) q s).2 := by
  unfold quotient
  split
  · exact .refl s
  · exact ordinary_drawFree s

theorem ordinary_extendedQuotient {w : Nat} (n d : Nat) (s : State) : Ordinary s (extendedQuotient (w := w) n d s).2.2 := by
  unfold extendedQuotient
  split
  · exact .refl s
  · exact (ordinary_drawFree s).trans (ordinary_drawFree _)

theorem ordinary_binaryOp {i : Instr} {len : IntLen} {src dst : Gen} {s t : State}
    {f : State → IntVal len → IntVal len → IntVal len × State} (hf : ∀ u a b, Ordinary u (f u a b).2)
    (h : binaryOp i len src dst s f = .ok t) : Ordinary s t := by
  obtain ⟨a, s1, h1, l, -, b, -, u, hu, rfl⟩ := binaryOp_eq_ok.1 h
  exact (((ordinary_readInt h1).trans (hf s1 a b)).trans (ordinary_writeLoc hu)).advance i

theorem ordinary_unaryOp {i : Instr} {len : IntLen} {src dst : Gen} {s t : State}
    {f : State → IntVal len → IntVal len × State} (hf : ∀ u a, Ordinary u (f u a).2)
    (h : unaryOp i len src dst s f = .ok t) : Ordinary s t := by
  obtain ⟨a, s1, h1, u, hu, rfl⟩ := unaryOp_eq_ok.1 h
  exact (((ordinary_readInt h1).trans (hf s1 a)).trans (ordinary_writeInt hu)).advance i

theorem ordinary_addOp {i : Instr} {len : IntLen} {src dst : Gen} {s t : State} (h : addOp i len src dst s = .next t) :
    Ordinary s t := ordinary_binaryOp (fun u a b => ordinary_addResult _ u a b) (finish_eq_next.1 h)

theorem ordinary_addCarryOp {i : Instr} {len : IntLen} {src dst : Gen} {s t : State}
    (h : addCarryOp i len src dst s = .next t) : Ordinary s t :=
  ordinary_binaryOp (fun u a b => ordinary_addResult _ u a b) (finish_eq_next.1 h)

theorem ordinary_subOp {i : Instr} {len : IntLen} {src dst : Gen} {s t : State} (h : subOp i len src dst s = .next t) :
    Ordinary s t := ordinary_binaryOp (fun u a b => ordinary_subResult _ u a b) (finish_eq_next.1 h)

theorem ordinary_subCarryOp {i : Instr} {len : IntLen} {src dst : Gen} {s t : State}
    (h : subCarryOp i len src dst s = .next t) : Ordinary s t :=
  ordinary_binaryOp (fun u a b => ordinary_subResult _ u a b) (finish_eq_next.1 h)

theorem ordinary_logicOp {i : Instr} {len : IntLen} {src dst : Gen} {s t : State}
    {f : IntVal len → IntVal len → IntVal len} (h : logicOp i len src dst s f = .next t) : Ordinary s t :=
  ordinary_binaryOp (fun u _ _ => .refl u) (finish_eq_next.1 h)

theorem ordinary_addQuickOp {i : Instr} {len : IntLen} {q : Quick} {dst : Gen} {s t : State}
    (h : addQuickOp i len q dst s = .next t) : Ordinary s t := by
  obtain ⟨l, -, b, -, u, hu, rfl⟩ := addTo_eq_ok.1 (finish_eq_next.1 h)
  exact ((ordinary_addResult false s _ b).trans (ordinary_writeLoc hu)).advance i

theorem ordinary_cmpOp {i : Instr} {len : IntLen} {src1 src2 : Gen} {s t : State}
    (h : cmpOp i len src1 src2 s = .next t) : Ordinary s t := by
  simp only [cmpOp, finish_eq_next, bind_eq_ok, pure_eq_ok, Except.ok.injEq, Prod.exists] at h
  obtain ⟨a, s1, h1, b, s2, h2, rfl⟩ := h
  exact (((ordinary_readInt h1).trans (ordinary_readInt h2)).trans (ordinary_setCompare s2 a b)).advance i

theorem ordinary_cmpQuickOp {i : Instr} {len : IntLen} {q : Quick} {src : Gen} {s t : State}
    (h : cmpQuickOp i len q src s = .next t) : Ordinary s t := by
  simp only [cmpQuickOp, finish_eq_next, bind_eq_ok, pure_eq_ok, Except.ok.injEq, Prod.exists] at h
  obtain ⟨b, s1, h1, rfl⟩ := h
  exact ((ordinary_readInt h1).trans (ordinary_setCompare s1 _ b)).advance i

theorem ordinary_shiftOp {i : Instr} {len : IntLen} {cnt dst : Gen} {s t : State}
    {left right : IntVal len → Nat → IntVal len} (h : shiftOp i len cnt dst s left right = .next t) : Ordinary s t := by
  obtain ⟨n, s1, h1, l, -, v, -, u, hu, rfl⟩ := shiftOp_eq_next.1 h
  exact (((ordinary_readInt h1).trans (ordinary_shiftResult left right s1 n v)).trans (ordinary_writeLoc hu)).advance i

theorem ordinary_movOp {i : Instr} {len : IntLen} {src dst : Gen} {s t : State} (h : movOp i len src dst s = .next t) :
    Ordinary s t := by
  simp only [movOp, finish_eq_next, bind_eq_ok, pure_eq_ok, Except.ok.injEq, Prod.exists] at h
  obtain ⟨a, s1, h1, u, hu, rfl⟩ := h
  exact ((ordinary_readInt h1).trans (ordinary_writeInt hu)).advance i

theorem ordinary_storeOp {i : Instr} {len : IntLen} {v : IntVal len} {dst : Gen} {s t : State}
    (h : storeOp i len v dst s = .next t) : Ordinary s t := by
  simp only [storeOp, finish_eq_next, bind_eq_ok, pure_eq_ok, Except.ok.injEq] at h
  obtain ⟨u, hu, rfl⟩ := h
  exact (ordinary_writeInt hu).advance i

theorem ordinary_extendOp {i : Instr} {len1 len2 : IntLen} {src dst : Gen} {s t : State} {f : IntVal len1 → IntVal len2}
    (h : extendOp i len1 len2 src dst s f = .next t) : Ordinary s t := by
  simp only [extendOp, finish_eq_next, bind_eq_ok, pure_eq_ok, Except.ok.injEq, Prod.exists] at h
  obtain ⟨a, s1, h1, u, hu, rfl⟩ := h
  exact ((ordinary_readInt h1).trans (ordinary_writeInt hu)).advance i

/-- What follows a step that an instruction ends with: PC moves on. -/
theorem ordinary_thenAdvance {i : Instr} {r : Res State} {s t : State} (hr : ∀ u, r = .ok u → Ordinary s u)
    (h : finish (r >>= fun u => pure (u.advance i)) = .next t) : Ordinary s t := by
  simp only [finish_eq_next, bind_eq_ok, pure_eq_ok, Except.ok.injEq] at h
  obtain ⟨u, hu, rfl⟩ := h
  exact (hr u hu).advance i

theorem ordinary_addr {src dst : Gen} {s t : State} (h : execAddr src dst s = .next t) : Ordinary s t := by
  simp only [execAddr, finish_eq_next, bind_eq_ok, pure_eq_ok, Except.ok.injEq] at h
  obtain ⟨a, -, u, hu, rfl⟩ := h
  exact (ordinary_writeInt hu).advance _

theorem ordinary_writePair {len : IntLen} {l : Loc} {lo hi : IntVal len} {s t : State}
    (h : writePair len l lo hi s = .ok t) : Ordinary s t := by
  cases l with
  | reg r =>
    simp only [writePair, bind_eq_ok] at h
    obtain ⟨q, -, u, hu, ht⟩ := h
    exact (ordinary_writeLoc hu).trans (ordinary_writeLoc ht)
  | mem a =>
    simp only [writePair, bind_eq_ok] at h
    obtain ⟨u, hu, ht⟩ := h
    exact (ordinary_writeLoc hu).trans (ordinary_writeLoc ht)
  | imm v => simp [writePair] at h

theorem ordinary_meii {len : IntLen} {src dst : Gen} {s t : State} (h : execMeii len src dst s = .next t) :
    Ordinary s t := by
  simp only [execMeii, finish_eq_next, bind_eq_ok, pure_eq_ok, Except.ok.injEq, Prod.exists] at h
  obtain ⟨a, s1, h1, l, -, lo, hi, -, u, hu, rfl⟩ := h
  exact ((ordinary_readInt h1).trans (ordinary_writePair hu)).advance _

theorem ordinary_indexi {len : IntLen} {accum : Reg} {size idx : Gen} {s t : State}
    (h : execIndexi len accum size idx s = .next t) : Ordinary s t := by
  simp only [execIndexi, finish_eq_next, bind_eq_ok, pure_eq_ok, Except.ok.injEq, Prod.exists] at h
  obtain ⟨n, s1, h1, k, s2, h2, rfl⟩ := h
  exact (((ordinary_readInt h1).trans (ordinary_readInt h2)).trans (ordinary_setReg s2 _ _)).advance _

theorem ordinary_checki {len : IntLen} {dst : Reg} {bounds src : Gen} {s t : State}
    (h : execChecki len dst bounds src s = .next t) : Ordinary s t := by
  simp only [execChecki, finish_eq_next, bind_eq_ok, pure_eq_ok, Except.ok.injEq, Prod.exists] at h
  obtain ⟨b, -, hi, -, lo, -, v, s1, h1, rfl⟩ := h
  exact ((((ordinary_readInt h1).trans (ordinary_drawFree s1)).trans (ordinary_setReg _ _ _)).trans
    (ordinary_setFlag _ _ (by decide))).advance _

/-! ### Bits and fields -/

theorem ordinary_testBitOp {i : Instr} {len : IntLen} {off base : Gen} {s t : State}
    (h : testBitOp i len off base s = .next t) : Ordinary s t := by
  obtain ⟨o, s1, h1, l, -, b, -, rfl⟩ := testBitOp_eq_next.1 h
  exact ((ordinary_readInt h1).trans (ordinary_setFlag s1 b (by decide))).advance i

theorem ordinary_writeBit {l : BitLoc} {b : Bool} {s t : State} (h : l.write b s = .ok t) : Ordinary s t := by
  cases l with
  | reg r k =>
    cases h
    exact ordinary_setReg s r _
  | mem a k =>
    simp only [BitLoc.write, bind_eq_ok] at h
    obtain ⟨v, -, h⟩ := h
    exact ordinary_storeByte h

theorem ordinary_changeBitOp {i : Instr} {len : IntLen} {off base : Gen} {s t : State} {f : Bool → Bool}
    (h : changeBitOp i len off base s f = .next t) : Ordinary s t := by
  obtain ⟨o, s1, h1, l, -, b, -, u, hu, rfl⟩ := changeBitOp_eq_next.1 h
  exact (((ordinary_readInt h1).trans (ordinary_setFlag s1 b (by decide))).trans (ordinary_writeBit hu)).advance i

theorem ordinary_ffsi {field : RegLen} {base off : Gen} {s t : State} (h : execFfsi field base off s = .next t) :
    Ordinary s t := by
  simp only [execFfsi, finish_eq_next, bind_eq_ok, pure_eq_ok, Except.ok.injEq, Prod.exists] at h
  obtain ⟨v, s1, h1, l, -, k, -, u, hu, rfl⟩ := h
  refine ((ordinary_readInt h1).trans (Ordinary.trans ?_ (ordinary_writeLoc hu))).advance _
  split
  · split <;> exact ordinary_setFlag s1 _ (by decide)
  · exact (ordinary_drawFree s1).trans (ordinary_setFlag _ _ (by decide))

theorem ordinary_cvtp {field : RegLen} {base dst : Gen} {s t : State} (h : execCvtp field base dst s = .next t) :
    Ordinary s t := by
  simp only [execCvtp, finish_eq_next, bind_eq_ok, pure_eq_ok, Except.ok.injEq] at h
  obtain ⟨a, -, u, hu, rfl⟩ := h
  exact (ordinary_writeInt hu).advance _

theorem ordinary_extractField {i : Instr} {len : IntLen} {base dst : Gen} {off : Dword} {size : Nat} {s t : State}
    (h : finish (extractField i len base dst off size s) = .next t) : Ordinary s t := by
  obtain ⟨⟨l, k⟩, -, h⟩ := bind_eq_ok.1 (finish_eq_next.1 h)
  obtain ⟨d, -, h⟩ := bind_eq_ok.1 h
  simp only [bind_eq_ok, pure_eq_ok, Except.ok.injEq] at h
  obtain ⟨u, hu, rfl⟩ := h
  refine (Ordinary.trans ?_ (ordinary_writeInt hu)).advance i
  split
  · exact .refl s
  · exact ordinary_drawFree s

theorem ordinary_insertField {i : Instr} {len : IntLen} {src base : Gen} {off : Dword} {size : Nat} {s t : State}
    (h : finish (insertField i len src base off size s) = .next t) : Ordinary s t := by
  obtain ⟨⟨a, s1⟩, h1, h⟩ := bind_eq_ok.1 (finish_eq_next.1 h)
  obtain ⟨⟨l, k⟩, -, h⟩ := bind_eq_ok.1 h
  obtain ⟨d, -, h⟩ := bind_eq_ok.1 h
  simp only [bind_eq_ok, pure_eq_ok, Except.ok.injEq] at h
  obtain ⟨u, hu, rfl⟩ := h
  refine ((ordinary_readInt h1).trans (Ordinary.trans ?_ (ordinary_writeLoc hu))).advance i
  split
  · exact .refl s1
  · exact ordinary_drawFree s1

/-! ### Branches, calls and the frame -/

theorem ordinary_branchBy (disp : Dword) (s : State) : Ordinary s (branchBy disp s) :=
  (ordinary_flushQueue s).trans (ordinary_setPc _ _)

theorem ordinary_bcond {cond : Cond} {disp : Disp} {s t : State} (h : execBcond cond disp s = .next t) : Ordinary s t := by
  cases h
  split
  · exact ordinary_branchBy disp.val s
  · exact (Ordinary.refl s).advance _

theorem ordinary_acbOp {i : Instr} {len : IntLen} {q : Quick} {idx : Gen} {disp : Disp} {s t : State}
    (h : acbOp i len q idx disp s = .next t) : Ordinary s t := by
  simp only [acbOp, finish_eq_next, bind_eq_ok] at h
  obtain ⟨l, -, b, -, h⟩ := h
  split at h <;> simp only [bind_eq_ok, pure_eq_ok, Except.ok.injEq] at h
  · obtain ⟨u, hu, rfl⟩ := h
    exact (ordinary_writeLoc hu).advance i
  · obtain ⟨u, hu, rfl⟩ := h
    exact ((ordinary_flushQueue s).trans (ordinary_writeLoc hu)).trans (ordinary_setPc u _)

theorem ordinary_caseOp {len : IntLen} {src : Gen} {s t : State} (h : caseOp len src s = .next t) : Ordinary s t := by
  simp only [caseOp, finish_eq_next, bind_eq_ok, pure_eq_ok, Except.ok.injEq, Prod.exists] at h
  obtain ⟨v, s1, h1, rfl⟩ := h
  exact ((ordinary_flushQueue s).trans (ordinary_readInt h1)).trans (ordinary_setPc s1 _)

theorem ordinary_jump {dst : Gen} {s t : State} (h : execJump dst s = .next t) : Ordinary s t := by
  simp only [execJump, finish_eq_next, bind_eq_ok, pure_eq_ok, Except.ok.injEq] at h
  obtain ⟨a, -, rfl⟩ := h
  exact (ordinary_flushQueue s).trans (ordinary_setPc _ a)

theorem ordinary_bsr {disp : Disp} {s t : State} (h : execBsr disp s = .next t) : Ordinary s t := by
  simp only [execBsr, finish_eq_next, bind_eq_ok, pure_eq_ok, Except.ok.injEq] at h
  obtain ⟨u, hu, rfl⟩ := h
  exact ((ordinary_flushQueue s).trans (ordinary_push32 hu)).trans (ordinary_setPc u _)

theorem ordinary_jsr {dst : Gen} {s t : State} (h : execJsr dst s = .next t) : Ordinary s t := by
  simp only [execJsr, finish_eq_next, bind_eq_ok, pure_eq_ok, Except.ok.injEq] at h
  obtain ⟨a, -, u, hu, rfl⟩ := h
  exact ((ordinary_flushQueue s).trans (ordinary_push32 hu)).trans (ordinary_setPc u a)

theorem ordinary_ret {disp : Disp} {s t : State} (h : execRet disp s = .next t) : Ordinary s t := by
  simp only [execRet, finish_eq_next, bind_eq_ok, pure_eq_ok, Except.ok.injEq, Prod.exists] at h
  obtain ⟨a, u, hu, rfl⟩ := h
  exact (((ordinary_flushQueue s).trans (ordinary_pop32 hu)).trans (ordinary_setSp u _)).trans (ordinary_setPc _ a)

theorem ordinary_callExternal {i : Instr} {d : Dword} {s t : State} (h : callExternal i d s = .ok t) : Ordinary s t := by
  obtain ⟨u, hu, v, hv, ht⟩ := callExternal_eq_ok.1 h
  exact (((ordinary_drawFree s).trans (ordinary_push32 hu)).trans (ordinary_push32 hv)).trans (ordinary_enterModule ht)

theorem ordinary_cxp {disp : Disp} {s t : State} (h : execCxp disp s = .next t) : Ordinary s t := by
  simp only [execCxp, finish_eq_next, bind_eq_ok] at h
  obtain ⟨table, -, d, -, h⟩ := h
  exact (ordinary_flushQueue s).trans (ordinary_callExternal h)

theorem ordinary_cxpd {desc : Gen} {s t : State} (h : execCxpd desc s = .next t) : Ordinary s t := by
  simp only [execCxpd, finish_eq_next, bind_eq_ok] at h
  obtain ⟨a, -, d, -, h⟩ := h
  exact (ordinary_flushQueue s).trans (ordinary_callExternal h)

theorem ordinary_rxp {disp : Disp} {s t : State} (h : execRxp disp s = .next t) : Ordinary s t := by
  simp only [execRxp, finish_eq_next, bind_eq_ok, pure_eq_ok, Except.ok.injEq, Prod.exists] at h
  obtain ⟨pc, u, hu, w, v, hv, sb, -, rfl⟩ := h
  exact ((((ordinary_flushQueue s).trans (ordinary_pop32 hu)).trans (ordinary_pop32 hv)).trans (ordinary_setSp v _)).trans
    (.of_vital rfl)

theorem ordinary_adjspOp {i : Instr} {len : IntLen} {src : Gen} {s t : State} (h : adjspOp i len src s = .next t) :
    Ordinary s t := by
  simp only [adjspOp, finish_eq_next, bind_eq_ok, pure_eq_ok, Except.ok.injEq, Prod.exists] at h
  obtain ⟨v, s1, h1, rfl⟩ := h
  exact ((ordinary_readInt h1).trans (ordinary_setSp s1 _)).advance i

theorem ordinary_pushRegs {l : List Reg} {s t : State} (h : pushRegs l s = .ok t) : Ordinary s t := by
  induction l generalizing s with
  | nil => cases h; exact .refl _
  | cons r l ih =>
    obtain ⟨u, hu, h⟩ := bind_eq_ok.1 h
    exact (ordinary_push32 hu).trans (ih h)

theorem ordinary_popRegs {l : List Reg} {s t : State} (h : popRegs l s = .ok t) : Ordinary s t := by
  induction l generalizing s with
  | nil => cases h; exact .refl _
  | cons r l ih =>
    obtain ⟨⟨v, u⟩, hu, h⟩ := bind_eq_ok.1 h
    exact ((ordinary_pop32 hu).trans (ordinary_setReg u r v)).trans (ih h)

theorem ordinary_save {list : Byte} {s t : State} (h : execSave list s = .next t) : Ordinary s t :=
  ordinary_thenAdvance (fun _ => ordinary_pushRegs) h

theorem ordinary_restore {list : Byte} {s t : State} (h : execRestore list s = .next t) : Ordinary s t :=
  ordinary_thenAdvance (fun _ => ordinary_popRegs) h

theorem ordinary_enter {list : Byte} {disp : Disp} {s t : State} (h : execEnter list disp s = .next t) : Ordinary s t := by
  simp only [execEnter, finish_eq_next, bind_eq_ok, pure_eq_ok, Except.ok.injEq] at h
  obtain ⟨u, hu, v, hv, rfl⟩ := h
  have hframe : Ordinary u { u with fp := u.sp } := .of_vital rfl
  exact ((((ordinary_push32 hu).trans hframe).trans (ordinary_setSp _ _)).trans (ordinary_pushRegs hv)).advance _

theorem ordinary_exit {list : Byte} {s t : State} (h : execExit list s = .next t) : Ordinary s t := by
  simp only [execExit, finish_eq_next, bind_eq_ok, pure_eq_ok, Except.ok.injEq, Prod.exists] at h
  obtain ⟨u, hu, v, w, hw, rfl⟩ := h
  have hframe : Ordinary w { w with fp := v } := .of_vital rfl
  exact ((((ordinary_popRegs hu).trans (ordinary_setSp u _)).trans (ordinary_pop32 hw)).trans hframe).advance _

/-! ### Blocks and strings -/

theorem ordinary_copyBlock {bytes n : Nat} {a b : Dword} {s t : State} (h : copyBlock bytes n a b s = .ok t) :
    Ordinary s t := by
  induction n generalizing a b s with
  | zero => cases h; exact .refl _
  | succ n ih =>
    simp only [copyBlock, bind_eq_ok] at h
    obtain ⟨v, -, u, hu, h⟩ := h
    exact (ordinary_store hu).trans (ih h)

theorem ordinary_compareBlock {len : IntLen} {n : Nat} {a b : Dword} {s t : State}
    (h : compareBlock len n a b s = .ok t) : Ordinary s t := by
  induction n generalizing a b s with
  | zero => cases h; exact .refl _
  | succ n ih =>
    simp only [compareBlock, bind_eq_ok] at h
    obtain ⟨x, -, y, -, h⟩ := h
    split at h
    · exact (ordinary_setCompare s x y).trans (ih h)
    · cases h; exact ordinary_setCompare s x y

theorem ordinary_movmi {len : IntLen} {src dst : Gen} {disp : Disp} {s t : State}
    (h : execMovmi len src dst disp s = .next t) : Ordinary s t := by
  simp only [execMovmi, finish_eq_next, bind_eq_ok, pure_eq_ok, Except.ok.injEq] at h
  obtain ⟨-, -, a, -, b, -, u, hu, rfl⟩ := h
  exact (ordinary_copyBlock hu).advance _

theorem ordinary_cmpmi {len : IntLen} {src1 src2 : Gen} {disp : Disp} {s t : State}
    (h : execCmpmi len src1 src2 disp s = .next t) : Ordinary s t := by
  simp only [execCmpmi, finish_eq_next, bind_eq_ok, pure_eq_ok, Except.ok.injEq] at h
  obtain ⟨-, -, a, -, b, -, u, hu, rfl⟩ := h
  exact (ordinary_compareBlock hu).advance _

theorem ordinary_stringElement {len : IntLen} {o : StringOpts} {v : IntVal len} {s t : State}
    (h : stringElement len o s = .ok (v, t)) : Ordinary s t := by
  rw [(stringElement_spec h).1]
  exact .of_vital rfl

theorem ordinary_stringAdvance (len : IntLen) (o : StringOpts) (both : Bool) (s : State) :
    Ordinary s (stringAdvance len o both s) := by
  refine .of_vital ?_
  unfold stringAdvance
  split <;> simp [vital]

theorem ordinary_moveString {len : IntLen} {o : StringOpts} {n : Nat} {s t : State} (h : moveString len o n s = .ok t) :
    Ordinary s t := by
  induction n generalizing s with
  | zero => cases h; exact ordinary_setFlag _ false (by decide)
  | succ n ih =>
    simp only [moveString, bind_eq_ok, Prod.exists] at h
    obtain ⟨v, u, hv, h⟩ := h
    refine (ordinary_stringElement hv).trans ?_
    split at h
    · cases h; exact ordinary_setFlag u true (by decide)
    · obtain ⟨w, hw, h⟩ := bind_eq_ok.1 h
      exact ((ordinary_writeLoc hw).trans (ordinary_stringAdvance len o true w)).trans (ih h)

theorem ordinary_compareString {len : IntLen} {o : StringOpts} {n : Nat} {s t : State}
    (h : compareString len o n s = .ok t) : Ordinary s t := by
  induction n generalizing s with
  | zero => cases h; exact .refl _
  | succ n ih =>
    simp only [compareString, bind_eq_ok, Prod.exists] at h
    obtain ⟨v, u, hv, h⟩ := h
    refine (ordinary_stringElement hv).trans ?_
    split at h
    · cases h; exact ordinary_setFlag u true (by decide)
    · obtain ⟨y, -, h⟩ := bind_eq_ok.1 h
      split at h
      · exact (ordinary_stringAdvance len o true u).trans (ih h)
      · cases h; exact ordinary_setCompare u v y

theorem ordinary_skipString {len : IntLen} {o : StringOpts} {n : Nat} {s t : State} (h : skipString len o n s = .ok t) :
    Ordinary s t := by
  induction n generalizing s with
  | zero => cases h; exact ordinary_setFlag _ false (by decide)
  | succ n ih =>
    simp only [skipString, bind_eq_ok, Prod.exists] at h
    obtain ⟨v, u, hv, h⟩ := h
    refine (ordinary_stringElement hv).trans ?_
    split at h
    · cases h; exact ordinary_setFlag u true (by decide)
    · exact (ordinary_stringAdvance len o false u).trans (ih h)

theorem ordinary_compareStart (s : State) : Ordinary s (compareStart s) :=
  (((ordinary_setFlag s _ (by decide)).trans (ordinary_setFlag _ _ (by decide))).trans
    (ordinary_setFlag _ _ (by decide))).trans (ordinary_setFlag _ _ (by decide))

end Sys2Proof.Proofs
end

section
/-! PROOFS about the state, third part: the graphics instructions are ordinary; the instructions that may trap, that are
privileged or that need the floating-point unit have an `Effect`. -/

namespace Sys2Proof.Proofs

open Sys2Proof.Machine

/-! ### Graphics instructions -/

theorem ordinary_patternLoop {bytes n : Nat} {s t : State} (h : patternLoop bytes n s = .ok t) : Ordinary s t := by
  induction n generalizing s with
  | zero => cases h; exact .refl _
  | succ n ih =>
    obtain ⟨u, hu, h⟩ := bind_eq_ok.1 h
    exact (((ordinary_store hu).trans (ordinary_setReg u _ _)).trans (ordinary_setReg _ _ _)).trans (ih h)

theorem ordinary_movmpOp {i : Instr} {bytes : Nat} {s t : State} (h : movmpOp i bytes s = .next t) : Ordinary s t :=
  ordinary_thenAdvance (fun _ => ordinary_patternLoop) h

theorem ordinary_sbits {s t : State} (h : execSbits s = .next t) : Ordinary s t := by
  simp only [execSbits, finish_eq_next] at h
  split at h <;> simp only [bind_eq_ok, pure_eq_ok, Except.ok.injEq] at h
  · obtain ⟨d, -, rfl⟩ := h
    exact (ordinary_setFlag s true (by decide)).advance _
  · obtain ⟨e, -, d, -, u, hu, rfl⟩ := h
    exact ((ordinary_store hu).trans (ordinary_setFlag u false (by decide))).advance _

theorem ordinary_perpendicularLoop {n : Nat} {s t : State} (h : perpendicularLoop n s = .ok t) : Ordinary s t := by
  induction n generalizing s with
  | zero => cases h; exact .refl _
  | succ n ih =>
    simp only [perpendicularLoop, bind_eq_ok] at h
    obtain ⟨v, -, u, hu, h⟩ := h
    exact (((ordinary_storeByte hu).trans (ordinary_setReg u _ _)).trans (ordinary_setReg _ _ _)).trans (ih h)

theorem ordinary_sbitps {s t : State} (h : execSbitps s = .next t) : Ordinary s t :=
  ordinary_thenAdvance (fun _ => ordinary_perpendicularLoop) h

theorem ordinary_testLoop {ones : Bool} {n : Nat} {s t : State} (h : testLoop ones n s = .ok t) : Ordinary s t := by
  induction n generalizing s with
  | zero => cases h; exact .refl _
  | succ n ih =>
    simp only [testLoop, bind_eq_ok] at h
    obtain ⟨v, -, h⟩ := h
    have hbit : Ordinary s (s.setFlag .f (v.getLsbD (bitPos (s.reg .r1)))) := ordinary_setFlag s _ (by decide)
    have hmove := fun x y => hbit.trans ((ordinary_setReg _ .r1 x).trans (ordinary_setReg _ .r2 y))
    split at h
    · cases h; exact hbit.trans (ordinary_setFlag _ true (by decide))
    · split at h
      · cases h; exact (hmove _ _).trans (ordinary_setFlag _ true (by decide))
      · split at h
        · cases h; exact (hmove _ _).trans (ordinary_setFlag _ false (by decide))
        · exact (hmove _ _).trans (ih h)

theorem ordinary_tbits {ones : Bool} {s t : State} (h : execTbits ones s = .next t) : Ordinary s t := by
  simp only [execTbits, finish_eq_next] at h
  split at h
  · cases h
    exact ((ordinary_setFlag s false (by decide)).trans (ordinary_setFlag _ ones (by decide))).advance _
  · exact ordinary_thenAdvance (fun _ => ordinary_testLoop) (finish_eq_next.2 h)

theorem ordinary_bbWord {fn : BbFn} {inv : Bool} {pos : WordPos} {s t : State} (h : bbWord fn inv pos s = .ok t) :
    Ordinary s t := by
  simp only [bbWord, bind_eq_ok] at h
  obtain ⟨w, -, h⟩ := h
  split at h
  · obtain ⟨d, -, h⟩ := bind_eq_ok.1 h
    exact ordinary_store h
  · obtain ⟨d, -, h⟩ := bind_eq_ok.1 h
    refine Ordinary.trans (.of_vital ?_) (ordinary_store h)
    unfold keepMask
    split <;> rfl

theorem ordinary_movePointers (step : Dword) (s : State) : Ordinary s (movePointers step s) :=
  (ordinary_setReg s .r0 _).trans (ordinary_setReg _ .r1 _)

theorem ordinary_countWord (s : State) : Ordinary s s.countWord := .of_vital rfl

theorem ordinary_endLine (s : State) : Ordinary s (endLine s) :=
  ((ordinary_setReg s .r0 _).trans (ordinary_setReg _ .r1 _)).trans (ordinary_setReg _ .r3 _)

theorem ordinary_bbInner {fn : BbFn} {da inv : Bool} {n : Nat} {s t : State} (h : bbInner fn da inv n s = .ok t) :
    Ordinary s t := by
  induction n generalizing s with
  | zero => cases h; exact .refl _
  | succ n ih =>
    simp only [bbInner] at h
    split at h
    · cases h; exact .refl _
    · obtain ⟨u, hu, h⟩ := bind_eq_ok.1 h
      exact (((ordinary_bbWord hu).trans (ordinary_movePointers _ u)).trans (ordinary_countWord _)).trans (ih h)

theorem ordinary_bbLine {fn : BbFn} {da inv : Bool} {s t : State} (h : bbLine fn da inv s = .ok t) : Ordinary s t := by
  simp only [bbLine, bind_eq_ok] at h
  obtain ⟨width, -, u, hu, h⟩ := h
  have hwidth : Ordinary s { s with fp := width.setWidth 32 } := .of_vital rfl
  have hfirst := hwidth.trans (ordinary_bbWord hu)
  have hmoved := hfirst.trans ((ordinary_movePointers (bbStep da) u).trans (ordinary_countWord _))
  split at h
  · cases h
    exact hmoved.trans (ordinary_endLine _)
  · simp only [bind_eq_ok, pure_eq_ok, Except.ok.injEq] at h
    obtain ⟨v, hv, w, hw, rfl⟩ := h
    exact ((hmoved.trans (ordinary_bbInner hv)).trans (ordinary_bbWord hw)).trans (ordinary_endLine w)

theorem ordinary_bbLines {fn : BbFn} {da inv : Bool} {n : Nat} {s t : State} (h : bbLines fn da inv n s = .ok t) :
    Ordinary s t := by
  induction n generalizing s with
  | zero => cases h; exact .refl _
  | succ n ih =>
    obtain ⟨u, hu, h⟩ := bind_eq_ok.1 h
    refine (ordinary_bbLine hu).trans ?_
    split at h
    · cases h; exact .refl _
    · exact ih h

theorem ordinary_bbOp {i : Instr} {fn : BbFn} {da inv : Bool} {s t : State} (h : bbOp i fn da inv s = .next t) :
    Ordinary s t := by
  simp only [bbOp, bbRun, finish_eq_next, bind_eq_ok, pure_eq_ok, Except.ok.injEq, Prod.exists] at h
  obtain ⟨-, -, u, ⟨u1, hu1, u2, hu2, v, u3, hu3, rfl⟩, rfl⟩ := h
  have hframe : Ordinary u3 { u3 with fp := v } := .of_vital rfl
  exact ((((ordinary_push32 hu1).trans (ordinary_bbLines hu2)).trans (ordinary_pop32 hu3)).trans hframe).advance i

theorem ordinary_bitwt {s t : State} (h : execBitwt s = .next t) : Ordinary s t := by
  simp only [execBitwt, finish_eq_next, bind_eq_ok, pure_eq_ok, Except.ok.injEq] at h
  obtain ⟨-, -, u, hu, rfl⟩ := h
  refine (Ordinary.trans ?_ (ordinary_movePointers _ u)).advance _
  simp only [bitwtWord, bind_eq_ok] at hu
  obtain ⟨w, -, hu⟩ := hu
  split at hu <;>
    (obtain ⟨d, -, hu⟩ := bind_eq_ok.1 hu
     exact ordinary_store hu)

theorem ordinary_extbltWord {first : Bool} {s t : State} (h : extbltWord first s = .ok t) : Ordinary s t := by
  simp only [extbltWord, bind_eq_ok] at h
  obtain ⟨ws, -, d, -, h⟩ := h
  have hbpu : Ordinary s { s with bpu := (Config.bpuResult s.bpu ws d).2 } := .of_vital rfl
  exact hbpu.trans (ordinary_store h)

theorem ordinary_extbltWords {n : Nat} {first : Bool} {s t : State} (h : extbltWords n first s = .ok t) :
    Ordinary s t := by
  induction n generalizing first s with
  | zero => cases h; exact .refl _
  | succ n ih =>
    simp only [extbltWords, bind_eq_ok] at h
    obtain ⟨u, hu, h⟩ := h
    have hword := fun x => (ordinary_extbltWord hu).trans (ordinary_setReg u .r5 x)
    split at h
    · cases h; exact hword _
    · exact ((hword _).trans (ordinary_movePointers _ _)).trans (ih h)

theorem ordinary_extbltLines {n : Nat} {s t : State} (h : extbltLines n s = .ok t) : Ordinary s t := by
  induction n generalizing s with
  | zero => cases h; exact .refl _
  | succ n ih =>
    simp only [extbltLines, bind_eq_ok] at h
    obtain ⟨u, hu, h⟩ := h
    have hline := ((ordinary_setReg s .r5 _).trans (ordinary_extbltWords hu)).trans (ordinary_endLine u)
    split at h
    · cases h; exact hline
    · exact hline.trans (ih h)

/-- NBPU asserted before an operation and deasserted after it (R152). -/
theorem Ordinary.deassert {s t : State} (h : Ordinary { s with nbpu := true } t) : Ordinary s { t with nbpu := false } :=
  ⟨⟨h.mem, h.reserved, h.unflushed, fun _ => rfl⟩, h.user, h.stack, h.interrupt, h.intbase, h.cfg⟩

theorem ordinary_extblt {s t : State} (h : execExtblt s = .next t) : Ordinary s t := by
  simp only [execExtblt, finish_eq_next, bind_eq_ok, pure_eq_ok, Except.ok.injEq, Prod.exists] at h
  obtain ⟨-, -, u, hu, w, hw, v, x, hx, rfl⟩ := h
  have hframe : Ordinary x { x with fp := v } := .of_vital rfl
  exact ((((ordinary_push32 hu).trans (ordinary_extbltLines hw).deassert).trans (ordinary_pop32 hx)).trans hframe).advance _

/-! ### Exceptions, privilege and the dedicated registers -/

/-- Entering an exception writes PSR whole and pushes twice (R433). -/
theorem keepsInv_takeException {e : Exception} {ret : Dword} {s t : State} (h : takeException e ret s = .ok t) :
    KeepsInv s t := by
  obtain ⟨u, hu, v, hv, d, -, ht⟩ := takeException_eq_ok.1 h
  exact (keepsInv_setPsr s _).trans
    (((ordinary_push32 hu).trans (ordinary_push32 hv)).trans (ordinary_enterModule ht)).toKeepsInv

/-- Returning from one pops twice and writes PSR whole (R434). -/
theorem keepsInv_returnFromTrap {disp : Dword} {s t : State} (h : returnFromTrap disp s = .ok t) : KeepsInv s t := by
  obtain ⟨pc, u, hu, saved, v, hv, sb, -, rfl⟩ := returnFromTrap_eq_ok.1 h
  have hpsr := keepsInv_setPsr v (saved.extractLsb' 16 16)
  have hrest : Ordinary (v.setPsr (saved.extractLsb' 16 16))
      { v.setPsr (saved.extractLsb' 16 16) with mod := saved.setWidth 16, sb := sb, pc := pc } := .of_vital rfl
  exact (((ordinary_pop32 hu).trans (ordinary_pop32 hv)).toKeepsInv.trans hpsr).trans
    (hrest.trans (ordinary_setSp _ _)).toKeepsInv

/-- All an instruction can do: an unprivileged operation, an exception at its own address, or, in supervisor mode, a
privileged operation. -/
inductive Effect (s t : State) : Prop
  | ordinary (h : Ordinary s t)
  | exception (e : Exception) (h : takeException e s.pc s = .ok t)
  | privileged (hu : s.flag .u = false) (h : KeepsInv s t)

theorem Effect.keepsInv {s t : State} (h : Effect s t) : KeepsInv s t := by
  cases h with
  | ordinary h => exact h.toKeepsInv
  | exception e h => exact keepsInv_takeException h
  | privileged hu h => exact h

theorem effect_privileged {r : Res State} {s t : State} (hr : r = .ok t → KeepsInv s t)
    (h : finish (privileged s r) = .next t) : Effect s t := by
  rw [finish_eq_next] at h
  cases hu : s.flag .u with
  | true => exact .exception .ill (by rwa [privileged_user r hu] at h)
  | false => exact .privileged hu (hr (by rwa [privileged_supervisor r hu] at h))

theorem effect_trapHere {e : Exception} {s t : State} (h : trapHere e s = .next t) : Effect s t :=
  .exception e (finish_eq_next.1 h)

theorem effect_flag {s t : State} (h : execFlag s = .next t) : Effect s t := by
  unfold execFlag at h
  split at h
  · exact effect_trapHere h
  · cases h; exact .ordinary ((Ordinary.refl s).advance _)

theorem effect_divideOp {i : Instr} {len : IntLen} {src dst : Gen} {s t : State}
    {f : State → IntVal len → IntVal len → IntVal len × State} (hf : ∀ u a b, Ordinary u (f u a b).2)
    (h : divideOp i len src dst s f = .next t) : Effect s t := by
  simp only [divideOp, finish_eq_next, bind_eq_ok, Prod.exists] at h
  obtain ⟨a, u, -, h⟩ := h
  split at h
  · exact .exception .dvz h
  · exact .ordinary (ordinary_binaryOp hf h)

theorem effect_deii {len : IntLen} {src dst : Gen} {s t : State} (h : execDeii len src dst s = .next t) : Effect s t := by
  simp only [execDeii, finish_eq_next, bind_eq_ok, Prod.exists] at h
  obtain ⟨a, s1, h1, h⟩ := h
  split at h
  · exact .exception .dvz h
  · simp only [bind_eq_ok, pure_eq_ok, Except.ok.injEq, Prod.exists] at h
    obtain ⟨l, -, lo, hi, -, u, hu, rfl⟩ := h
    exact .ordinary ((((ordinary_readInt h1).trans (ordinary_extendedQuotient _ _ s1)).trans (ordinary_writePair hu)).advance _)

theorem keepsInv_writeAreg (s : State) (a : AReg) (v : Dword) : KeepsInv s (s.writeAreg a v) := by
  cases a with
  | upsr | psr => exact keepsInv_setPsr s _
  | sp => exact (ordinary_setSp s v).toKeepsInv
  | fp | sb | mod | intbase => exact ⟨id, id, id, id⟩

/-- Writing an unprivileged dedicated register; UPSR is the low byte of PSR, so the high one stays (R29). -/
theorem ordinary_writeAreg (s : State) {a : AReg} (v : Dword) (h : aregPrivileged a = false) :
    Ordinary s (s.writeAreg a v) := by
  cases a with
  | upsr =>
    refine ordinary_setPsr s _ (fun k h8 h12 => ?_)
    rw [BitVec.getLsbD_append, if_neg (by omega), BitVec.getLsbD_extractLsb', show 8 + (k - 8) = k by omega]
    simp [show k - 8 < 8 by omega]
  | sp => exact ordinary_setSp s v
  | fp | sb | mod => exact .of_vital rfl
  | psr | intbase => simp [aregPrivileged] at h

theorem ordinary_lprValue (len : IntLen) (a : AReg) (v : IntVal len) (s : State) :
    Ordinary s (lprValue len a v s).2 := by
  unfold lprValue
  split
  · exact ordinary_drawFree s
  · exact .refl s

theorem effect_lprOp {i : Instr} {len : IntLen} {a : AReg} {src : Gen} {s t : State} (h : lprOp i len a src s = .next t) :
    Effect s t := by
  cases ha : aregPrivileged a with
  | true =>
    simp only [lprOp, ha, if_true] at h
    refine effect_privileged (fun hr => ?_) h
    simp only [bind_eq_ok, pure_eq_ok, Except.ok.injEq, Prod.exists] at hr
    obtain ⟨v, s1, h1, rfl⟩ := hr
    exact (((ordinary_readInt h1).trans (ordinary_lprValue len a v s1)).toKeepsInv.trans (keepsInv_writeAreg _ a _)).trans
      ((Ordinary.refl _).advance i).toKeepsInv
  | false =>
    simp only [lprOp, ha, Bool.false_eq_true, if_false, finish_eq_next, bind_eq_ok, pure_eq_ok, Except.ok.injEq,
      Prod.exists] at h
    obtain ⟨v, s1, h1, rfl⟩ := h
    exact .ordinary ((((ordinary_readInt h1).trans (ordinary_lprValue len a v s1)).trans
      (ordinary_writeAreg _ _ ha)).advance i)

theorem effect_sprOp {i : Instr} {len : IntLen} {a : AReg} {dst : Gen} {s t : State} (h : sprOp i len a dst s = .next t) :
    Effect s t := by
  cases ha : aregPrivileged a with
  | true =>
    simp only [sprOp, ha, if_true] at h
    exact effect_privileged (fun hr =>
      (ordinary_thenAdvance (fun _ => ordinary_writeInt) (finish_eq_next.2 hr)).toKeepsInv) h
  | false =>
    simp only [sprOp, ha, Bool.false_eq_true, if_false] at h
    exact .ordinary (ordinary_thenAdvance (fun _ => ordinary_writeInt) h)

theorem keepsInv_psrOp {i : Instr} {len : IntLen} {src : Gen} {s t : State} {f : Word16 → Word16 → Word16}
    (h : psrOp i len src s f = .ok t) : KeepsInv s t := by
  obtain ⟨v, s1, h1, rfl⟩ := psrOp_eq_ok.1 h
  exact ((ordinary_readInt h1).toKeepsInv.trans (keepsInv_setPsr s1 _)).trans ((Ordinary.refl _).advance i).toKeepsInv

/-- The byte form reaches the low byte of PSR only (R414, R415). -/
theorem ordinary_psrOp_byte {i : Instr} {src : Gen} {s t : State} {f : Word16 → Word16 → Word16}
    (hf : ∀ psr (v : Byte) k, 8 ≤ k → k < 12 → (f psr (v.setWidth 16)).getLsbD k = psr.getLsbD k)
    (h : psrOp i .b src s f = .ok t) : Ordinary s t := by
  obtain ⟨v, s1, h1, rfl⟩ := psrOp_eq_ok.1 h
  exact ((ordinary_readInt h1).trans (ordinary_setPsr s1 _ (hf s1.psr v))).advance i

theorem ordinary_bicpsrb {src : Gen} {s t : State} (h : execBicpsrb src s = .next t) : Ordinary s t := by
  refine (ordinary_flushQueue s).trans (ordinary_psrOp_byte (fun psr v k h8 h12 => ?_) (finish_eq_next.1 h))
  simp [BitVec.getLsbD_of_ge v k h8, show k < 16 by omega]

theorem ordinary_bispsrb {src : Gen} {s t : State} (h : execBispsrb src s = .next t) : Ordinary s t := by
  refine (ordinary_flushQueue s).trans (ordinary_psrOp_byte (fun psr v k h8 h12 => ?_) (finish_eq_next.1 h))
  simp [BitVec.getLsbD_of_ge v k h8]

theorem effect_psrOp {i : Instr} {len : IntLen} {src : Gen} {s t : State} {f : Word16 → Word16 → Word16}
    (h : finish (privileged s (psrOp i len src s f)) = .next t) : Effect s t := effect_privileged keepsInv_psrOp h

theorem effect_psrOp_flush {i : Instr} {len : IntLen} {src : Gen} {s t : State} {f : Word16 → Word16 → Word16}
    (h : finish (privileged s (psrOp i len src s.flushQueue f)) = .next t) : Effect s t :=
  effect_privileged (fun hr => (ordinary_flushQueue s).toKeepsInv.trans (keepsInv_psrOp hr)) h

theorem effect_setcfg {opts : BitVec 4} {s t : State} (h : execSetcfg opts s = .next t) : Effect s t := by
  refine effect_privileged (fun hr => ?_) h
  cases hr
  exact ⟨id, id, id, id⟩

theorem effect_rett {disp : Dword} {s t : State} (h : finish (privileged s (returnFromTrap disp s.flushQueue)) = .next t) :
    Effect s t :=
  effect_privileged (fun hr => (ordinary_flushQueue s).toKeepsInv.trans (keepsInv_returnFromTrap hr)) h

/-! ### Floating-point instructions -/

theorem ordinary_askFpu (op : Config.FpuOp) (m n : Nat) (args : List Quad) (s : State) :
    Ordinary s (askFpu op m n args s).2 := .of_vital rfl

/-- With the unit disabled a floating-point instruction takes a trap; else its own effect decides (R93). -/
theorem effect_withFpu {r : Res State} {s t : State} (hr : r = .ok t → Ordinary s t) (h : withFpu s r = .next t) :
    Effect s t := by
  cases hc : s.cfg.getLsbD 1 with
  | true => exact .ordinary (hr (by rwa [withFpu_enabled r hc, finish_eq_next] at h))
  | false => exact .exception .und (by rwa [withFpu_disabled r hc, finish_eq_next] at h)

theorem effect_floatBinary {i : Instr} {op : Config.FpuOp} {fl : FLen} {src dst : Gen} {s t : State}
    (h : floatBinary i op fl src dst s = .next t) : Effect s t := by
  refine effect_withFpu (fun hr => ?_) h
  simp only [bind_eq_ok, pure_eq_ok, Except.ok.injEq, Prod.exists] at hr
  obtain ⟨a, s1, h1, l, -, b, -, u, hu, rfl⟩ := hr
  exact (((ordinary_readFloat h1).trans (ordinary_askFpu _ _ _ _ s1)).trans (ordinary_writeFloatLoc hu)).advance i

theorem effect_floatUnary {i : Instr} {op : Config.FpuOp} {fl1 fl2 : FLen} {src dst : Gen} {s t : State}
    (h : floatUnary i op fl1 fl2 src dst s = .next t) : Effect s t := by
  refine effect_withFpu (fun hr => ?_) h
  simp only [bind_eq_ok, pure_eq_ok, Except.ok.injEq, Prod.exists] at hr
  obtain ⟨a, s1, h1, u, hu, rfl⟩ := hr
  exact (((ordinary_readFloat h1).trans (ordinary_askFpu _ _ _ _ s1)).trans (ordinary_writeFloat hu)).advance i

theorem effect_floatToInt {i : Instr} {op : Config.FpuOp} {fl : FLen} {len : IntLen} {src dst : Gen} {s t : State}
    (h : floatToInt i op fl len src dst s = .next t) : Effect s t := by
  refine effect_withFpu (fun hr => ?_) h
  simp only [bind_eq_ok, pure_eq_ok, Except.ok.injEq, Prod.exists] at hr
  obtain ⟨a, s1, h1, u, hu, rfl⟩ := hr
  exact (((ordinary_readFloat h1).trans (ordinary_askFpu _ _ _ _ s1)).trans (ordinary_writeInt hu)).advance i

theorem effect_floatAccumulate {i : Instr} {op : Config.FpuOp} {fl : FLen} {src1 src2 : Gen} {s t : State}
    (h : floatAccumulate i op fl src1 src2 s = .next t) : Effect s t := by
  refine effect_withFpu (fun hr => ?_) h
  simp only [bind_eq_ok, pure_eq_ok, Except.ok.injEq, Prod.exists] at hr
  obtain ⟨a, s1, h1, b, s2, h2, rfl⟩ := hr
  exact ((((ordinary_readFloat h1).trans (ordinary_readFloat h2)).trans (ordinary_askFpu _ _ _ _ s2)).trans
    (ordinary_setLongReg _ _ _)).advance i

theorem effect_movf {fl : FLen} {src dst : Gen} {s t : State} (h : execMovf fl src dst s = .next t) : Effect s t := by
  refine effect_withFpu (fun hr => ?_) h
  simp only [bind_eq_ok, pure_eq_ok, Except.ok.injEq, Prod.exists] at hr
  obtain ⟨a, s1, h1, u, hu, rfl⟩ := hr
  exact (((ordinary_readFloat h1).trans (ordinary_askFpu _ _ _ _ s1)).trans (ordinary_writeFloat hu)).advance _

theorem effect_movif {fl : FLen} {len : IntLen} {src dst : Gen} {s t : State}
    (h : execMovif fl len src dst s = .next t) : Effect s t := by
  refine effect_withFpu (fun hr => ?_) h
  simp only [bind_eq_ok, pure_eq_ok, Except.ok.injEq, Prod.exists] at hr
  obtain ⟨a, s1, h1, u, hu, rfl⟩ := hr
  exact (((ordinary_readInt h1).trans (ordinary_askFpu _ _ _ _ s1)).trans (ordinary_writeFloat hu)).advance _

theorem effect_cmpf {fl : FLen} {src1 src2 : Gen} {s t : State} (h : execCmpf fl src1 src2 s = .next t) : Effect s t := by
  refine effect_withFpu (fun hr => ?_) h
  simp only [bind_eq_ok, pure_eq_ok, Except.ok.injEq, Prod.exists] at hr
  obtain ⟨a, s1, h1, b, s2, h2, rfl⟩ := hr
  have hread := ((ordinary_readFloat h1).trans (ordinary_readFloat h2)).trans (ordinary_askFpu .cmp (8 * fl.bytes) 3 [a, b] s2)
  exact (((hread.trans (ordinary_setFlag _ _ (by decide))).trans (ordinary_setFlag _ _ (by decide))).trans
    (ordinary_setFlag _ _ (by decide))).advance _

theorem effect_lfsr {fl : FLen} {len : IntLen} {src : Gen} {spare : BitVec 5} {s t : State}
    (h : execLfsr fl len src spare s = .next t) : Effect s t := by
  refine effect_withFpu (fun hr => ?_) h
  simp only [bind_eq_ok, pure_eq_ok, Except.ok.injEq, Prod.exists] at hr
  obtain ⟨v, s1, h1, rfl⟩ := hr
  exact (ordinary_readInt h1).trans (.of_vital rfl)

theorem effect_sfsr {fl : FLen} {len : IntLen} {spare : BitVec 5} {dst : Gen} {s t : State}
    (h : execSfsr fl len spare dst s = .next t) : Effect s t :=
  effect_withFpu (fun hr => ordinary_thenAdvance (fun _ => ordinary_writeInt) (finish_eq_next.2 hr)) h

end Sys2Proof.Proofs
end

section
/-! PROOFS about the state, fourth part: the effect of every instruction, what a step can do, and the two statements that
follow. -/

namespace Sys2Proof.Proofs

open Sys2Proof.Machine

/-! ### Every instruction -/

/-- Every instruction does one of the three things of `Effect`. -/
theorem effect_exec {i : Instr} {s t : State} (h : exec i s = .next t) : Effect s t := by
  cases i with
  -- The graphics instructions.
  | bbor | bbfor | bbxor | bband | bbstod => exact .ordinary (ordinary_bbOp h)
  | extblt => exact .ordinary (ordinary_extblt h)
  | movmpb | movmpw | movmpd => exact .ordinary (ordinary_movmpOp h)
  | bitwt => exact .ordinary (ordinary_bitwt h)
  | tbits => exact .ordinary (ordinary_tbits h)
  | sbitps => exact .ordinary (ordinary_sbitps h)
  | sbits => exact .ordinary (ordinary_sbits h)
  -- Branches, calls and the frame.
  | br => cases h; exact .ordinary (ordinary_branchBy _ s)
  | bcond => exact .ordinary (ordinary_bcond h)
  | bsr => exact .ordinary (ordinary_bsr h)
  | ret => exact .ordinary (ordinary_ret h)
  | cxp => exact .ordinary (ordinary_cxp h)
  | cxpd => exact .ordinary (ordinary_cxpd h)
  | rxp => exact .ordinary (ordinary_rxp h)
  | save => exact .ordinary (ordinary_save h)
  | restore => exact .ordinary (ordinary_restore h)
  | enter => exact .ordinary (ordinary_enter h)
  | exit => exact .ordinary (ordinary_exit h)
  | jump => exact .ordinary (ordinary_jump h)
  | jsr => exact .ordinary (ordinary_jsr h)
  | acbb | acbw | acbd => exact .ordinary (ordinary_acbOp h)
  | caseb | casew | cased => exact .ordinary (ordinary_caseOp h)
  | adjspb | adjspw | adjspd => exact .ordinary (ordinary_adjspOp h)
  | nop => cases h; exact .ordinary ((Ordinary.refl s).advance _)
  -- The system instructions.
  | wait => cases h; exact .ordinary (.of_vital rfl)
  | dia => cases h; exact .ordinary (ordinary_flushQueue s)
  | flag => exact effect_flag h
  | rett | reti => exact effect_rett h
  | setcfg => exact effect_setcfg h
  | bicpsrb => exact .ordinary (ordinary_bicpsrb h)
  | bispsrb => exact .ordinary (ordinary_bispsrb h)
  | bicpsrw | bispsrw => exact effect_psrOp_flush h
  | bicpsrd | bispsrd => exact effect_psrOp h
  | lprb | lprw | lprd => exact effect_lprOp h
  | sprb | sprw | sprd => exact effect_sprOp h
  -- The integer instructions.
  | addb | addw | addd => exact .ordinary (ordinary_addOp h)
  | addcb | addcw | addcd => exact .ordinary (ordinary_addCarryOp h)
  | subb | subw | subd => exact .ordinary (ordinary_subOp h)
  | subcb | subcw | subcd => exact .ordinary (ordinary_subCarryOp h)
  | addqb | addqw | addqd => exact .ordinary (ordinary_addQuickOp h)
  | cmpb | cmpw | cmpd => exact .ordinary (ordinary_cmpOp h)
  | cmpqb | cmpqw | cmpqd => exact .ordinary (ordinary_cmpQuickOp h)
  | andb | andw | andd | orb | orw | ord | xorb | xorw | xord | bicb | bicw | bicd => exact .ordinary (ordinary_logicOp h)
  | movb | movw | movd => exact .ordinary (ordinary_movOp h)
  | movqb | movqw | movqd | scondb | scondw | scondd => exact .ordinary (ordinary_storeOp h)
  | movxbw | movzbw | movzbd | movzwd | movxbd | movxwd => exact .ordinary (ordinary_extendOp h)
  | addr => exact .ordinary (ordinary_addr h)
  | roti | ashi | lshi => exact .ordinary (ordinary_shiftOp h)
  | comi | noti => exact .ordinary (ordinary_unaryOp (fun u _ => .refl u) (finish_eq_next.1 h))
  | negi => exact .ordinary (ordinary_unaryOp (fun u a => ordinary_subResult _ u a _) (finish_eq_next.1 h))
  | absi => exact .ordinary (ordinary_unaryOp ordinary_absResult (finish_eq_next.1 h))
  | addpi | subpi => exact .ordinary (ordinary_binaryOp (fun u _ _ => ordinary_decimalResult _ u _) (finish_eq_next.1 h))
  | muli => exact .ordinary (ordinary_binaryOp (fun u _ _ => .refl u) (finish_eq_next.1 h))
  | quoi | divi => exact effect_divideOp (fun u _ _ => ordinary_quotient _ u) h
  | remi | modi => exact effect_divideOp (fun u _ _ => .refl u) h
  | meii => exact .ordinary (ordinary_meii h)
  | deii => exact effect_deii h
  | checki => exact .ordinary (ordinary_checki h)
  | indexi => exact .ordinary (ordinary_indexi h)
  -- Bits, fields, blocks and strings.
  | tbitb | tbitw | tbitd => exact .ordinary (ordinary_testBitOp h)
  | sbiti | cbiti | ibiti | sbitii | cbitii => exact .ordinary (ordinary_changeBitOp h)
  | ffsi => exact .ordinary (ordinary_ffsi h)
  | cvtp => exact .ordinary (ordinary_cvtp h)
  | exti | extsi => exact .ordinary (ordinary_extractField h)
  | insi | inssi => exact .ordinary (ordinary_insertField h)
  | movmi => exact .ordinary (ordinary_movmi h)
  | cmpmi => exact .ordinary (ordinary_cmpmi h)
  | movsi | movsti => exact .ordinary (ordinary_thenAdvance (fun _ => ordinary_moveString) h)
  | cmpsi | cmpsti =>
    exact .ordinary ((ordinary_compareStart s).trans (ordinary_thenAdvance (fun _ => ordinary_compareString) h))
  | skpsi | skpsti => exact .ordinary (ordinary_thenAdvance (fun _ => ordinary_skipString) h)
  -- The floating-point instructions.
  | addf | subf | mulf | divf | scalbf => exact effect_floatBinary h
  | negf | absf | logbf | movlf | movfl => exact effect_floatUnary h
  | roundfi | truncfi | floorfi => exact effect_floatToInt h
  | polyf | dotf => exact effect_floatAccumulate h
  | movf => exact effect_movf h
  | movif => exact effect_movif h
  | cmpf => exact effect_cmpf h
  | lfsr => exact effect_lfsr h
  | sfsr => exact effect_sfsr h
  -- The instructions that only trap, and the removed ones.
  | svc | bpt | rdval | wrval | lmr | smr | movsui | movusi | catst0 | catst1 | lcr | scr | ccv0ci | ccv1ci | ccv2ci | ccv3ci
  | ccv4dq | ccv5qd | lcsr | scsr | ccal0c | ccal1c | ccal2c | ccal3c | cmov0c | cmov1c | cmov2c | cmov3c | ccmp0c
  | ccmp1c => exact effect_trapHere h

/-! ### The two statements -/

/-- What a step can do. -/
theorem step_eq_next {s t : State} (h : step s = .next t) : s.waiting = true ∧ t = s ∨
    (∃ i u, exec i (beginTrace s) = .next u ∧
      (t = u ∨ takeException .trc u.pc (u.setFlag .p false) = .ok t)) ∨ takeException .und s.pc s = .ok t := by
  unfold step at h
  split at h
  · next hw =>
    cases h
    exact .inl ⟨hw, rfl⟩
  · split at h
    · next i _ =>
      unfold endTrace at h
      split at h
      · next u hu =>
        refine .inr (.inl ⟨i, u, hu, ?_⟩)
        split at h
        · exact .inr (finish_eq_next.1 h)
        · cases h
          exact .inl rfl
      all_goals cases h
    · exact .inr (.inr (finish_eq_next.1 h))
    · next e _ => cases e <;> cases h

/-- Settles O9: a step is a latched T, an instruction's effect and at most one more exception entry, and each keeps every part
of the invariant. -/
theorem stepKeepsInv : Obligations.StepKeepsInv := by
  intro s t hs h
  refine KeepsInv.inv ?_ hs
  rcases step_eq_next h with ⟨-, rfl⟩ | ⟨i, u, hu, ht⟩ | ht
  · exact (Ordinary.refl _).toKeepsInv
  · have hexec : KeepsInv s u := (keepsInv_setFlag s .p _).trans (effect_exec hu).keepsInv
    rcases ht with rfl | ht
    · exact hexec
    · exact hexec.trans ((keepsInv_setFlag u .p false).trans (keepsInv_takeException ht))
  · exact keepsInv_takeException ht

/-- Settles O12: in user mode the privileged case of an instruction's effect cannot happen. -/
theorem userModeConfined : Obligations.UserModeConfined := by
  intro i s t hu h
  cases effect_exec h with
  | ordinary h => exact .inl ⟨h.user.trans hu, h.stack, h.interrupt, h.intbase, h.cfg⟩
  | exception e h => exact .inr ⟨e, h⟩
  | privileged hn _ => rw [hu] at hn; cases hn

end Sys2Proof.Proofs
end

section
/-! PROOFS about the fetch (O5 and O6): no instruction is longer than the fetch window, and bytes placed at PC are what the
window holds. -/

namespace Sys2Proof.Proofs

open Sys2Proof.Machine

/-! ### The length of an instruction -/

theorem length_dispEncode_le (d : Disp) : d.encode.length ≤ 4 := by cases d <;> simp [Disp.encode]

theorem length_bigEndian (v : Quad) (n : Nat) : (bigEndian v n).length = n := by
  induction n with
  | zero => rfl
  | succ n ih => simp [bigEndian, ih]

/-- Two displacements or an immediate of eight bytes are the longest extension (R95). -/
theorem length_modeExtBytes_le (m : BaseMode) {n : Nat} (h : n ≤ 8) : (m.extBytes n).length ≤ 8 := by
  cases m with
  | reg | tos => simp [BaseMode.extBytes]
  | regRel _ d | absolute d | space _ d => exact (length_dispEncode_le d).trans (by decide)
  | memRel _ d1 d2 | external d1 d2 =>
    have h1 := length_dispEncode_le d1
    have h2 := length_dispEncode_le d2
    simp only [BaseMode.extBytes, List.length_append]
    omega
  | imm v => simpa [BaseMode.extBytes, length_bigEndian] using h

theorem operand_extLen_le {o : Operand} (h : o.bytes ≤ 8) : o.extLen ≤ 9 := by
  obtain ⟨g, a, n⟩ := o
  cases g with
  | plain m => simpa [Operand.extLen, Gen.indexBytes, Gen.extBytes] using (length_modeExtBytes_le m h).trans (by decide)
  | scaled m x k =>
    have hext : (m.extBytes n).length ≤ 8 := length_modeExtBytes_le m h
    simp only [Operand.extLen, Gen.indexBytes, Gen.extBytes, List.length_singleton]
    omega

theorem intLen_bytes_le (n : IntLen) : n.bytes ≤ 8 := by cases n <;> decide

theorem fLen_bytes_le (f : FLen) : f.bytes ≤ 8 := by cases f <;> decide

theorem bytes_le_of_one {g : Gen} {x : Access} {n : Nat} (h : n ≤ 8) : ∀ o ∈ [Operand.mk g x n], o.bytes ≤ 8 := by
  simpa using h

theorem bytes_le_of_two {g1 g2 : Gen} {x1 x2 : Access} {n1 n2 : Nat} (h1 : n1 ≤ 8) (h2 : n2 ≤ 8) :
    ∀ o ∈ [Operand.mk g1 x1 n1, Operand.mk g2 x2 n2], o.bytes ≤ 8 := by
  simpa using And.intro h1 h2

/-- No operand is longer than a Long floating value (R393). -/
theorem operands_bytes_le (i : Instr) : ∀ o ∈ i.operands, o.bytes ≤ 8 := by
  cases i with
  | addqb | addqw | addqd | acbb | acbw | acbd | cmpqb | cmpqw | cmpqd | lprb | lprw | lprd | bicpsrb | bicpsrw | bicpsrd
  | bispsrb | bispsrw | bispsrd | adjspb | adjspw | adjspd | caseb | casew | cased | sprb | sprw | sprd | scondb | scondw
  | scondd | movqb | movqw | movqd | lfsr | sfsr | cxpd | jump | jsr => exact bytes_le_of_one (by decide)
  | addb | addw | addd | bicb | bicw | bicd | addcb | addcw | addcd | orb | orw | ord | subb | subw | subd | andb | andw | andd
  | subcb | subcw | subcd | xorb | xorw | xord | cmpb | cmpw | cmpd | movb | movw | movd | addr | cvtp | tbitb | tbitw | tbitd
  | movxbw | movzbw | movzbd | movxbd | movzwd | movxwd | movlf | movfl => exact bytes_le_of_two (by decide) (by decide)
  | roti n | ashi n | lshi n => exact bytes_le_of_two (by decide) (intLen_bytes_le n)
  | cbiti n | cbitii n | sbiti n | sbitii n | ibiti n | inssi n | insi n | negi n | noti n | absi n | comi n | subpi n | addpi n
  | muli n | quoi n | remi n | modi n | divi n | movmi n | cmpmi n | extsi n | exti n | meii n | deii n | checki n
  | indexi n => exact bytes_le_of_two (intLen_bytes_le n) (intLen_bytes_le n)
  | ffsi f => exact bytes_le_of_two (intLen_bytes_le f.len) (by decide)
  | movif f n => exact bytes_le_of_two (intLen_bytes_le n) (fLen_bytes_le f)
  | roundfi f n | truncfi f n | floorfi f n => exact bytes_le_of_two (fLen_bytes_le f) (intLen_bytes_le n)
  | addf f | subf f | divf f | mulf f | scalbf f | movf f | negf f | absf f | logbf f | cmpf f | polyf f | dotf f =>
    exact bytes_le_of_two (fLen_bytes_le f) (fLen_bytes_le f)
  | _ => exact fun _ ho => (List.not_mem_nil ho).elim

open Laws in
/-- The per-instruction bounds, for every constructor in the order of `Instr`. -/
theorem shape (i : Instr) : Shape.Statement i :=
  i.rec
    Shape.bbor Shape.bbfor Shape.bbxor Shape.bband Shape.bbstod Shape.extblt Shape.movmpb Shape.movmpw Shape.movmpd
    Shape.bitwt Shape.tbits Shape.sbitps Shape.sbits Shape.br Shape.bcond Shape.bsr Shape.ret Shape.cxp Shape.rxp
    Shape.rett Shape.reti Shape.save Shape.restore Shape.enter Shape.exit Shape.nop Shape.wait Shape.dia Shape.flag
    Shape.svc Shape.bpt Shape.addqb Shape.addqw Shape.addqd Shape.cmpqb Shape.cmpqw Shape.cmpqd Shape.sprb Shape.sprw
    Shape.sprd Shape.scondb Shape.scondw Shape.scondd Shape.acbb Shape.acbw Shape.acbd Shape.movqb Shape.movqw
    Shape.movqd Shape.lprb Shape.lprw Shape.lprd Shape.cxpd Shape.bicpsrb Shape.bicpsrw Shape.bicpsrd Shape.jump
    Shape.bispsrb Shape.bispsrw Shape.bispsrd Shape.adjspb Shape.adjspw Shape.adjspd Shape.jsr Shape.caseb Shape.casew
    Shape.cased Shape.addb Shape.addw Shape.addd Shape.cmpb Shape.cmpw Shape.cmpd Shape.bicb Shape.bicw Shape.bicd
    Shape.addcb Shape.addcw Shape.addcd Shape.movb Shape.movw Shape.movd Shape.orb Shape.orw Shape.ord Shape.subb
    Shape.subw Shape.subd Shape.addr Shape.andb Shape.andw Shape.andd Shape.subcb Shape.subcw Shape.subcd Shape.tbitb
    Shape.tbitw Shape.tbitd Shape.xorb Shape.xorw Shape.xord Shape.movsi Shape.movsti Shape.cmpsi Shape.cmpsti
    Shape.setcfg Shape.skpsi Shape.skpsti Shape.roti Shape.ashi Shape.cbiti Shape.cbitii Shape.lshi Shape.sbiti
    Shape.sbitii Shape.negi Shape.noti Shape.subpi Shape.absi Shape.comi Shape.ibiti Shape.addpi Shape.movmi
    Shape.cmpmi Shape.inssi Shape.extsi Shape.muli Shape.meii Shape.deii Shape.quoi Shape.remi Shape.modi Shape.divi
    Shape.movxbw Shape.movzbw Shape.movzbd Shape.movzwd Shape.movxbd Shape.movxwd Shape.exti Shape.cvtp Shape.insi
    Shape.checki Shape.indexi Shape.ffsi Shape.movif Shape.lfsr Shape.movlf Shape.movfl Shape.roundfi Shape.truncfi
    Shape.sfsr Shape.floorfi Shape.addf Shape.movf Shape.cmpf Shape.subf Shape.negf Shape.divf Shape.mulf Shape.absf
    Shape.polyf Shape.dotf Shape.scalbf Shape.logbf Shape.rdval Shape.wrval Shape.lmr Shape.smr Shape.movsui
    Shape.movusi Shape.catst0 Shape.catst1 Shape.lcr Shape.scr Shape.ccv0ci Shape.ccv1ci Shape.ccv2ci Shape.ccv3ci
    Shape.ccv4dq Shape.ccv5qd Shape.lcsr Shape.scsr Shape.ccal0c Shape.ccal1c Shape.ccal2c Shape.ccal3c Shape.cmov0c
    Shape.cmov1c Shape.cmov2c Shape.cmov3c Shape.ccmp0c Shape.ccmp1c

/-- The fetch window holds every instruction. -/
theorem instr_size_le (i : Instr) : i.size ≤ maxInstrBytes := by
  obtain ⟨-, -, hlen⟩ := shape i
  have hops : (i.operands.map Operand.extLen).sum ≤ (i.operands.map Operand.extLen).length • 9 := by
    refine List.sum_le_card_nsmul _ 9 (fun x hx => ?_)
    obtain ⟨o, ho, rfl⟩ := List.mem_map.1 hx
    exact operand_extLen_le (operands_bytes_le i o ho)
  simp only [List.length_map, smul_eq_mul] at hops
  unfold Instr.size
  omega

/-! ### Fetching placed bytes -/

/-- Placed bytes read back at their places, and every other byte as before. -/
theorem read_placeBytes (bs : List Byte) (m : List Host.Cell) (a k : Nat) :
    Memory.read (placeBytes m a bs) k =
      if h : a ≤ k ∧ k < a + bs.length then bs[k - a]'(by omega) else Memory.read m k := by
  induction bs generalizing m a with
  | nil =>
    rw [dif_neg (by simp)]
    rfl
  | cons b bs ih =>
    rw [placeBytes, ih]
    by_cases hk : k = a
    · subst hk
      rw [dif_neg (by omega), dif_pos (by simp)]
      simp
    · by_cases hin : a + 1 ≤ k ∧ k < a + 1 + bs.length
      · rw [dif_pos hin, dif_pos (by simp only [List.length_cons]; omega)]
        obtain ⟨j, rfl⟩ : ∃ j, k = a + (j + 1) := ⟨k - a - 1, by omega⟩
        simp [show a + (j + 1) - (a + 1) = j by omega]
      · rw [dif_neg hin, dif_neg (by simp only [List.length_cons]; omega), read_write_ne m b hk]

theorem fetchBytes_eq_map (m : List Host.Cell) (n a : Nat) :
    fetchBytes m n a = (List.range n).map (fun k => Memory.read m (a + k)) := by
  induction n generalizing a with
  | zero => rfl
  | succ n ih =>
    rw [fetchBytes, ih, List.range_succ_eq_map, List.map_cons, List.map_map]
    congr 1
    exact List.map_congr_left (fun k _ => by simp [Nat.add_assoc, Nat.add_comm 1 k])

theorem fetchBytes_placeBytes (m : List Host.Cell) (a : Nat) (bs : List Byte) :
    fetchBytes (placeBytes m a bs) bs.length a = bs := by
  rw [fetchBytes_eq_map]
  refine List.ext_getElem (by simp) (fun k h1 h2 => ?_)
  rw [List.getElem_map, List.getElem_range, read_placeBytes, dif_pos (by omega)]
  simp

theorem length_littleEndian (w n : Nat) : (littleEndian w n).length = n := by
  induction n generalizing w with
  | zero => rfl
  | succ n ih => simp [littleEndian, ih]

theorem length_tableBytes (nbits w : Nat) : (tableBytes nbits w).length = maxInstrBytes := length_littleEndian _ _

/-- The fetch window over an instruction placed at PC is exactly its bytes. -/
theorem fetchWindow_withFetchWord (s : State) (nbits w : Nat) (h : s.pc.toNat + maxInstrBytes ≤ 2 ^ 24) :
    fetchWindow (s.withFetchWord nbits w).mem s.pc.toNat = tableBytes nbits w := by
  have hroom : maxInstrBytes ≤ 2 ^ 24 - s.pc.toNat := by omega
  have hlen := length_tableBytes nbits w
  simp only [fetchWindow, State.withFetchWord, placeInstr, Nat.min_eq_left hroom]
  rw [List.take_of_length_le (by omega), ← hlen]
  exact fetchBytes_placeBytes _ _ _

/-- Placing an instruction leaves no stale byte in the window. -/
theorem isStale_withFetchWord (s : State) (nbits w : Nat) {n : Nat} (h : n ≤ maxInstrBytes) :
    isStale (s.withFetchWord nbits w).unflushed s.pc.toNat n = false := by
  simp only [isStale, State.withFetchWord, placeInstr, length_tableBytes, List.any_eq_false, List.mem_filter,
    Bool.and_eq_true, Bool.not_eq_true', decide_eq_true_eq, Bool.and_eq_false_imp, decide_eq_false_iff_not]
  rintro k ⟨-, hk⟩ ⟨h1, h2⟩
  exact hk h1 (by omega)

/-- The fetch answers what the window decodes to, when no byte of it is stale. -/
theorem fetch_of_decode {s : State} {i : Instr} {rest : List Byte} (hpc : s.pc.toNat < 2 ^ 24)
    (hd : decode (fetchWindow s.mem s.pc.toNat) = .ok (i, rest)) (hs : isStale s.unflushed s.pc.toNat i.size = false) :
    fetch s = .ok (.instr i) := by
  simp only [fetch, physical_of_lt hpc, ok_bind, hd, hs, Bool.not_false, require_true, pure_eq_ok]

theorem step_of_fetch {s : State} {i : Instr} (hw : s.waiting = false) (hf : fetch s = .ok (.instr i)) :
    step s = endTrace (exec i (beginTrace s)) := by
  simp only [step, hw, hf, Bool.false_eq_true, if_false]

theorem decodeTableWord_eq_some {nbits w : Nat} {i : Instr} :
    decodeTableWord nbits w = some i ↔ ∃ rest, decode (tableBytes nbits w) = .ok (i, rest) := by
  unfold decodeTableWord
  split
  · next j rest hd => simp [hd]
  · next e hd => simp [hd]

/-- Settles O6: the window over the placed bytes is those bytes, none of them stale. -/
theorem placedWordRuns : Obligations.PlacedWordRuns := by
  intro s nbits w i hpc hi
  obtain ⟨rest, hd⟩ := decodeTableWord_eq_some.1 hi
  rw [← fetchWindow_withFetchWord s nbits w hpc] at hd
  have hlt : s.pc.toNat < 2 ^ 24 := by
    have : 0 < maxInstrBytes := by decide
    omega
  exact step_of_fetch rfl (fetch_of_decode hlt hd (isStale_withFetchWord s nbits w (instr_size_le i)))

/-! ### A step runs the decoded instruction -/

/-- How an instruction that made a next state ends: nothing traced, or the CPU waits (R443). -/
theorem endTrace_untraced {t : State} (h : t.flag .p = false ∨ t.waiting = true) : endTrace (.next t) = .next t := by
  have hc : (t.flag .p && !t.waiting) = false := by rcases h with h | h <;> simp [h]
  simp only [endTrace, hc, Bool.false_eq_true, if_false]

theorem endTrace_traced {t : State} (hp : t.flag .p = true) (hw : t.waiting = false) :
    endTrace (.next t) = finish (takeException .trc t.pc (t.setFlag .p false)) := by
  simp [endTrace, hp, hw]

/-- Settles O5: the fetch answers the decoded instruction, and what it makes decides how the step ends. -/
theorem stepRunsDecoded : Obligations.StepRunsDecoded := by
  intro s i rest hw hpc hd hfresh
  have hstale : isStale s.unflushed s.pc.toNat i.size = false := by
    simp only [isStale, List.any_eq_false, Bool.and_eq_true, decide_eq_true_eq]
    exact hfresh
  have hstep : step s = endTrace (exec i (s.setFlag .p (s.flag .t))) := step_of_fetch hw (fetch_of_decode hpc hd hstale)
  rw [hstep]
  refine ⟨fun t ht hend => ?_, fun t ht hp hwait => ?_, fun r hr => ?_, fun r hr => ?_⟩
  · rw [ht, endTrace_untraced hend]
  · rw [ht, endTrace_traced hp hwait]
  · rw [hr]; rfl
  · rw [hr]; rfl

end Sys2Proof.Proofs
end

section
/-! PROOFS about external calls (O38) and register operands (O16). -/

namespace Sys2Proof.Proofs

open Sys2Proof.Machine Sys2Proof.Claims

/-! ### External calls and returns -/

/-- A push leaves the double-word that was on top of the stack as it was. -/
theorem load32_sp_push32 {s t : State} {v : Dword} (h : s.push32 v = .ok t) : t.load32 s.sp = s.load32 s.sp := by
  obtain ⟨-, hfit, -, hkeep, -⟩ := push32_spec h
  have htop : s.sp.toNat = (s.sp - 4#32).toNat + 4 := by bv_omega
  exact load32_congr_bytes _ (fun k h1 _ => hkeep k (by omega))

/-- Loading a double-word, as the state after a flush or an update of registers sees it. -/
theorem load32_of_mem {s t : State} {a v : Dword} (h : s.load32 a = .ok v) (hm : t.mem = s.mem) : t.load32 a = .ok v :=
  (load32_congr hm a).trans h

/-- CXP and CXPD read their descriptor and call through it, on the state with the queue flushed. -/
theorem exec_externalCall {s : State} {i : Instr} {d : Dword}
    (h : (∃ disp q, i = .cxp disp ∧ s.load32 (s.mod.setWidth 32 + 4#32) = .ok q ∧ s.load32 (q + 4#32 * disp.val) = .ok d) ∨
      (∃ g a, i = .cxpd g ∧ place g s = .ok (.mem a) ∧ s.load32 a = .ok d)) :
    exec i s = finish (callExternal i d s.flushQueue) := by
  rcases h with ⟨disp, q, rfl, hq, hd⟩ | ⟨g, a, rfl, ha, hd⟩
  · have hq' : s.flushQueue.load32 (s.flushQueue.mod.setWidth 32 + 4#32) = .ok q := load32_of_mem hq rfl
    have hd' : s.flushQueue.load32 (q + 4#32 * disp.val) = .ok d := load32_of_mem hd rfl
    simp only [exec, execCxp, hq', hd', ok_bind]
  · have ha' : effAddr g s.flushQueue = .ok a :=
      effAddr_eq_ok.2 ((place_congr g rfl rfl rfl rfl rfl rfl rfl).trans ha)
    have hd' : s.flushQueue.load32 a = .ok d := load32_of_mem hd rfl
    simp only [exec, execCxpd, ha', hd', ok_bind]

/-- RXP from a state whose stack holds a return address above a double-word with MOD in its low half. -/
theorem exec_rxp {s : State} {e : Disp} {pc w sb : Dword} (hpc : s.load32 s.sp = .ok pc)
    (hw : s.load32 (s.sp + 4#32) = .ok w) (hsb : s.load32 ((w.setWidth 16).setWidth 32) = .ok sb) :
    exec (.rxp e) s = .next { s.flushQueue.setSp (s.sp + 4#32 + 4#32 + e.val) with
      mod := w.setWidth 16, sb := sb, pc := pc } := by
  have h1 : s.flushQueue.pop32 = .ok (pc, s.flushQueue.setSp (s.sp + 4#32)) :=
    pop32_eq_ok.2 ⟨load32_of_mem hpc rfl, rfl⟩
  have h2 : (s.flushQueue.setSp (s.sp + 4#32)).pop32 = .ok (w, s.flushQueue.setSp (s.sp + 4#32 + 4#32)) := by
    refine pop32_eq_ok.2 ⟨?_, by simp⟩
    rw [sp_setSp]
    exact load32_of_mem hw (by simp)
  have h3 : (s.flushQueue.setSp (s.sp + 4#32 + 4#32)).load32 ((w.setWidth 16).setWidth 32) = .ok sb :=
    load32_of_mem hsb (by simp)
  simp only [exec, execRxp, h1, h2, h3, ok_bind, pure_eq_ok, finish_ok, sp_setSp, setSp_setSp]

/-- Setting SP commutes with an update of MOD, SB and PC, which are then written again. -/
theorem setSp_module (s : State) (v : Dword) (m m' : Word16) (sb sb' pc pc' : Dword) :
    { ({ s with mod := m, sb := sb, pc := pc } : State).setSp v with mod := m', sb := sb', pc := pc' } =
      { s.setSp v with mod := m', sb := sb', pc := pc' } := by
  have hS : ({ s with mod := m, sb := sb, pc := pc } : State).flag .s = s.flag .s := rfl
  unfold State.setSp
  rw [hS]
  split <;> rfl

/-- Settles O38: the two double-words a call pushes are the two that RXP pops. -/
theorem externalCall : Obligations.ExternalCall := by
  rintro s t i d sb base hi ⟨u, hu, ht⟩ hsb hbase
  have hcall : callExternal i d s.flushQueue = .ok { t with mod := d.setWidth 16, sb := sb, pc := base + d >>> 16 } :=
    callExternal_eq_ok.2 ⟨u, hu, t, ht, enterModule_eq_ok.2 ⟨sb, hsb, base, hbase, rfl⟩⟩
  refine ⟨by rw [exec_externalCall hi, hcall, finish_ok], fun e sb' hsb' => ?_⟩
  have hspu : u.sp = s.sp - 4#32 := (sp_push32 hu).trans rfl
  have hspt : t.sp = u.sp - 4#32 := sp_push32 ht
  have hret : t.load32 t.sp = .ok (s.pc + BitVec.ofNat 32 i.size) := by
    obtain ⟨-, -, hload, -, -⟩ := push32_spec ht
    rwa [hspt]
  have hmod : t.load32 (t.sp + 4#32) = .ok (openValue 16 s ++ s.mod) := by
    obtain ⟨-, -, hload, -, -⟩ := push32_spec hu
    rw [hspt, BitVec.sub_add_cancel, load32_sp_push32 ht, hspu]
    exact hload
  have hlow : (openValue 16 s ++ s.mod).setWidth 16 = s.mod := BitVec.setWidth_append_eq_right
  have hend : t.sp + 4#32 + 4#32 = s.sp := by rw [hspt, hspu]; bv_omega
  have h := exec_rxp (s := { t with mod := d.setWidth 16, sb := sb, pc := base + d >>> 16 }) (e := e) (sb := sb')
    (load32_of_mem hret rfl) (load32_of_mem hmod rfl) (load32_of_mem (by rwa [hlow]) rfl)
  rw [hlow] at h
  rw [h, ← hend]
  exact congrArg _ (setSp_module t.flushQueue _ _ _ _ _ _ _)

/-! ### Register operands -/

theorem lenBits_eq (len : IntLen) : lenBits len = 8 * len.bytes := by cases len <;> rfl

/-- Writing an integer register operand (R96, R401). -/
theorem writeInt_reg_spec (s : State) (len : IntLen) (r : Reg) (v : IntVal len) :
    ∃ t, (Loc.reg r).writeInt len v s = .ok t ∧
      (∀ k < 32, (t.reg r).getLsbD k = if k < lenBits len then v.getLsbD k else (s.reg r).getLsbD k) ∧
      KeptRegs s t [r] ∧ (Loc.reg r).readInt len t = .ok v ∧ t = { s with regs := t.regs } := by
  have h := Loc.writeInt_reg r len v s
  refine ⟨_, h, fun k hk => ?_, fun q hq => ?_, Loc.readInt_writeInt h, setReg_frame s r _⟩
  · rw [reg_setReg_same, getLsbD_mergeLow _ _ _ hk, ← lenBits_eq, BitVec.getLsbD_setWidth, decide_eq_true hk, Bool.true_and]
  · exact reg_setReg_ne _ _ (by simpa using hq)

/-- The lowest bit of a Float register in the Long register that holds it. -/
def floatLow (r : Reg) : Nat := if (floatHome r).2 then 32 else 0

/-- The bits of the Long register that holds a Float register, after that is written (log entry 19). -/
theorem getLsbD_setFloatReg (s : State) (r : Reg) (v : Quad) {k : Nat} (hk : k < 64) :
    ((s.setFloatReg .float r v).longReg (floatHome r).1).getLsbD k =
      if floatLow r ≤ k ∧ k < floatLow r + 32 then v.getLsbD (k - floatLow r)
      else (s.longReg (floatHome r).1).getLsbD k := by
  simp only [State.setFloatReg, longReg_setLongReg, if_true, floatLow]
  by_cases hhome : (floatHome r).2 = true
  · simp only [if_pos hhome, BitVec.getLsbD_append]
    by_cases h : k < 32
    · simp [h]
    · simp [h, show 32 ≤ k by omega, hk, show k - 32 < 32 by omega]
  · simp only [if_neg hhome, BitVec.getLsbD_append]
    by_cases h : k < 32
    · simp [h]
    · simp [h, show 32 + (k - 32) = k by omega, show k - 32 < 32 by omega]

/-- Reading a Float register takes its 32 bits of the Long register. -/
theorem getLsbD_floatReg (s : State) (r : Reg) {k : Nat} (hk : k < 64) :
    (s.floatReg .float r).getLsbD k = (decide (k < 32) && (s.longReg (floatHome r).1).getLsbD (floatLow r + k)) := by
  simp only [State.floatReg, floatLow]
  cases (floatHome r).2 with
  | false => simp [hk]
  | true =>
    simp only [if_true, BitVec.getLsbD_ushiftRight]
    by_cases h : k < 32
    · simp [h]
    · simp [h, BitVec.getLsbD_of_ge _ (32 + k) (show 64 ≤ 32 + k by omega)]

theorem floatReg_setFloatReg (s : State) (r : Reg) (v : Quad) :
    (s.setFloatReg .float r v).floatReg .float r = (v.setWidth 32).setWidth 64 := by
  have hlow : floatLow r ≤ 32 := by cases r <;> decide
  apply BitVec.eq_of_getLsbD_eq
  intro k hk
  rw [getLsbD_floatReg _ _ hk]
  by_cases h : k < 32
  · rw [getLsbD_setFloatReg s r v (by omega), if_pos (by omega)]
    simp [h, hk]
  · simp [h]

/-- Settles O16, by the bits of a merged general register and of the Long register that holds a Float register. -/
theorem registerOperand : Obligations.RegisterOperand := by
  refine ⟨writeInt_reg_spec, fun s r v => ?_, fun s r home low v hr => ?_⟩
  · refine ⟨_, rfl, ?_, fun q hq => ?_, ?_, setFloatReg_frame s .long r v⟩
    · exact (longReg_setLongReg s r r v).trans (if_pos rfl)
    · exact (longReg_setLongReg s r q v).trans (if_neg hq)
    · exact congrArg Except.ok ((longReg_setLongReg s r r v).trans (if_pos rfl))
  · obtain ⟨rfl, rfl⟩ : home = (floatHome r).1 ∧ low = floatLow r := by
      simp only [List.mem_cons, Prod.mk.injEq, List.not_mem_nil, or_false] at hr
      rcases hr with h | h | h | h | h | h | h | h <;> (obtain ⟨rfl, rfl, rfl⟩ := h; exact ⟨rfl, rfl⟩)
    refine ⟨_, rfl, fun k hk => getLsbD_setFloatReg s r v hk, fun q hq => ?_, ?_, setFloatReg_frame s .float r v⟩
    · exact (longReg_setLongReg s _ q _).trans (if_neg hq)
    · exact congrArg Except.ok (floatReg_setFloatReg s r v)

end Sys2Proof.Proofs
end

section
/-! PROOFS about the dedicated registers (O31, O32), the status instructions (O41), the traps of operands and of the mode
(O45) and the floating-point results (O47): each statement is the equation of the operation its instructions share. -/

namespace Sys2Proof.Proofs

open Sys2Proof.Machine Sys2Proof.Claims

/-! ### Scondi, SPRi and LPRi -/

theorem condValue_eq (len : IntLen) (c : Cond) (s : State) : condValue len c s = if condHolds c s then 1#_ else 0#_ := by
  unfold condValue
  cases condHolds c s <;> rfl

theorem storeOp_of_writeInt {i : Instr} {len : IntLen} {v : IntVal len} {dst : Gen} {s t : State}
    (h : writeInt len dst v s = .ok t) : storeOp i len v dst s = .next (t.advance i) := by
  simp only [storeOp, h, ok_bind, pure_eq_ok, finish_ok]

theorem lenBits_le (len : IntLen) : lenBits len ≤ 32 := by cases len <;> decide

/-- What SPRi stores of a dedicated register: it is zero-extended, or cut to the operand. -/
theorem readAreg_setWidth (len : IntLen) (a : AReg) (s : State) : (s.readAreg a).setWidth (lenBits len) =
    match a with
    | .upsr => (s.psr.setWidth 8).setWidth _ | .fp => s.fp.setWidth _ | .sp => s.sp.setWidth _ | .sb => s.sb.setWidth _
    | .psr => s.psr.setWidth _ | .intbase => s.intbase.setWidth _ | .mod => s.mod.setWidth _ := by
  cases a with
  | upsr => exact BitVec.setWidth_setWidth_of_le _ (lenBits_le len)
  | psr | mod => exact BitVec.setWidth_setWidth_of_le _ (lenBits_le len)
  | fp | sp | sb | intbase => rfl

theorem aregPrivileged_iff {a : AReg} : aregPrivileged a = true ↔ a ∈ [AReg.psr, .intbase] := by
  cases a <;> simp [aregPrivileged]

/-- Where a dedicated register may be accessed, the access has its effect (R29). -/
theorem privileged_areg {a : AReg} {s : State} (r : Res State) (h : a ∈ [AReg.psr, .intbase] → s.flag .u = false) :
    (if aregPrivileged a then privileged s r else r) = r := by
  split
  · next ha => exact privileged_supervisor r (h (aregPrivileged_iff.1 ha))
  · rfl

theorem sprOp_of_writeInt {i : Instr} {len : IntLen} {a : AReg} {dst : Gen} {s t : State}
    (hu : a ∈ [AReg.psr, .intbase] → s.flag .u = false)
    (h : writeInt len dst ((s.readAreg a).setWidth (lenBits len)) s = .ok t) :
    sprOp i len a dst s = .next (t.advance i) := by
  simp only [sprOp, privileged_areg _ hu, h, ok_bind, pure_eq_ok, finish_ok]

theorem lprOp_of_readInt {i : Instr} {len : IntLen} {a : AReg} {src : Gen} {s s1 : State} {v : IntVal len}
    (hu : a ∈ [AReg.psr, .intbase] → s.flag .u = false) (h : readInt len src s = .ok (v, s1)) :
    lprOp i len a src s = .next (((lprValue len a v s1).2.writeAreg a (lprValue len a v s1).1).advance i) := by
  simp only [lprOp, privileged_areg _ hu, h, ok_bind, pure_eq_ok, finish_ok]

theorem exec_scond (len : IntLen) (c : Cond) (dst : Gen) (s : State) :
    exec (len.pick (.scondb c dst) (.scondw c dst) (.scondd c dst)) s =
      storeOp (len.pick (.scondb c dst) (.scondw c dst) (.scondd c dst)) len (condValue len c s) dst s := by
  cases len <;> rfl

theorem exec_spr (len : IntLen) (a : AReg) (dst : Gen) (s : State) :
    exec (len.pick (.sprb a dst) (.sprw a dst) (.sprd a dst)) s =
      sprOp (len.pick (.sprb a dst) (.sprw a dst) (.sprd a dst)) len a dst s := by
  cases len <;> rfl

theorem exec_lpr (len : IntLen) (a : AReg) (src : Gen) (s : State) :
    exec (len.pick (.lprb a src) (.lprw a src) (.lprd a src)) s =
      lprOp (len.pick (.lprb a src) (.lprw a src) (.lprd a src)) len a src s := by
  cases len <;> rfl

/-- Settles O31: both store a value that is known before the operand is written. -/
theorem conditionStoreDedicated : Obligations.ConditionStoreDedicated := by
  refine ⟨fun len c dst s t h => ?_, fun len a dst s t hu h => ?_⟩
  · rw [exec_scond, condValue_eq]
    exact storeOp_of_writeInt h
  · rw [exec_spr]
    exact sprOp_of_writeInt hu (by rw [readAreg_setWidth]; exact h)

/-- The bits LPRi loads: the operand's, below its length (log entry 31). -/
theorem getLsbD_lprValue (len : IntLen) (a : AReg) (v : IntVal len) (s : State) {k : Nat} (hk : k < 32)
    (hl : k < lenBits len) : (lprValue len a v s).1.getLsbD k = v.getLsbD k := by
  unfold lprValue
  split
  · rw [lenBits_eq] at hl
    simp only [getLsbD_mergeLow _ _ _ hk, if_pos hl, BitVec.getLsbD_setWidth, hk, decide_true, Bool.true_and]
  · simp [hk]

/-- LPRi draws an open value where the register is longer than the operand. -/
theorem lprValue_state (len : IntLen) (a : AReg) (v : IntVal len) (s : State) :
    (lprValue len a v s).2 = if a = .upsr ∨ len = .d ∨ (len = .w ∧ (a = .psr ∨ a = .mod)) then s else drawn s := by
  cases len <;> cases a <;> rfl

/-- Writing a dedicated register, field by field. -/
theorem writeAreg_eq (u : State) (a : AReg) (w : Dword) : u.writeAreg a w =
    match a with
    | .upsr => { u with psr := (u.psr.extractLsb' 8 8 ++ w.setWidth 8) &&& 0x0FFF#16 }
    | .fp => { u with fp := w }
    | .sp => if u.flag .s then { u with sp1 := w } else { u with sp0 := w }
    | .sb => { u with sb := w }
    | .psr => { u with psr := w.setWidth 16 &&& 0x0FFF#16 }
    | .intbase => { u with intbase := w }
    | .mod => { u with mod := w.setWidth 16 } := by
  cases a <;> rfl

/-- Settles O32, with the value and the state of `lprValue`. -/
theorem loadDedicated : Obligations.LoadDedicated := by
  rintro len a src s s1 v i hread rfl hu
  refine ⟨(lprValue len a v s1).1, (lprValue len a v s1).2, fun k hk hl => getLsbD_lprValue len a v s1 hk hl,
    lprValue_state len a v s1, ?_⟩
  rw [exec_lpr, lprOp_of_readInt hu hread]
  exact congrArg (fun t => Host.Outcome.next (State.advance t _)) (writeAreg_eq _ a _)

/-! ### ADJSPi, PSR, CFG, DIA and WAIT -/

theorem adjspOp_of_readInt {i : Instr} {len : IntLen} {src : Gen} {s s1 : State} {v : IntVal len}
    (h : readInt len src s = .ok (v, s1)) :
    adjspOp i len src s = .next ((s1.setSp (s1.sp - v.signExtend 32)).advance i) := by
  simp only [adjspOp, h, ok_bind, pure_eq_ok, finish_ok]

theorem exec_adjsp (len : IntLen) (src : Gen) (s : State) :
    exec (len.pick (.adjspb src) (.adjspw src) (.adjspd src)) s =
      adjspOp (len.pick (.adjspb src) (.adjspw src) (.adjspd src)) len src s := by
  cases len <;> rfl

theorem psrOp_of_readInt {i : Instr} {len : IntLen} {src : Gen} {s s1 : State} {v : IntVal len}
    (f : Word16 → Word16 → Word16) (h : readInt len src s = .ok (v, s1)) :
    psrOp i len src s f = .ok ((s1.setPsr (f s1.psr (v.setWidth 16))).advance i) := by
  simp only [psrOp, h, ok_bind, pure_eq_ok]

/-- The state BICPSRi and BISPSRi run on: the double-word form does not flush the instruction queue (R66, log entry 16). -/
def psrStart (len : IntLen) (s : State) : State := if len = .d then s else { s with unflushed := [] }

/-- In supervisor mode the word and double-word forms have their effect too. -/
theorem privileged_len {len : IntLen} {s : State} (r : Res State) (h : len ≠ .b → s.flag .u = false) :
    (if len = .b then r else privileged s r) = r := by
  split
  · rfl
  · next hl => exact privileged_supervisor r (h hl)

/-- BICPSRi clears bits of PSR; the word and double-word forms are privileged (R414). -/
theorem exec_bicpsr (len : IntLen) (src : Gen) (s : State) :
    let i := len.pick (.bicpsrb src) (.bicpsrw src) (.bicpsrd src)
    let effect := psrOp i len src (psrStart len s) (fun psr v => psr &&& ~~~v)
    exec i s = finish (if len = .b then effect else privileged s effect) := by
  cases len <;> rfl

/-- BISPSRi sets bits of PSR (R415). -/
theorem exec_bispsr (len : IntLen) (src : Gen) (s : State) :
    let i := len.pick (.bispsrb src) (.bispsrw src) (.bispsrd src)
    let effect := psrOp i len src (psrStart len s) (fun psr v => psr ||| v)
    exec i s = finish (if len = .b then effect else privileged s effect) := by
  cases len <;> rfl

/-- Settles O41, by the equations of ADJSPi, BICPSRi and BISPSRi; the others are one update each. -/
theorem statusResult : Obligations.StatusResult := by
  refine ⟨fun len src s s1 v h => ?_, fun len src s s1 v hu h => ⟨?_, ?_⟩, fun o s hu => ?_, fun s => rfl, fun s => rfl,
    fun s hw => ?_⟩
  · rw [exec_adjsp, adjspOp_of_readInt h]
  · rw [exec_bicpsr, privileged_len _ hu, psrOp_of_readInt (s := psrStart len s) _ h]
    rfl
  · rw [exec_bispsr, privileged_len _ hu, psrOp_of_readInt (s := psrStart len s) _ h]
    rfl
  · exact congrArg finish (privileged_supervisor _ hu)
  · simp only [step, hw, if_true]

/-! ### Where operands and the mode trap -/

/-- In user mode a privileged form is its trap (R438). -/
theorem finish_privileged_user {s t : State} (r : Res State) (hu : s.flag .u = true)
    (ht : takeException .ill s.pc s = .ok t) : finish (privileged s r) = .next t := by
  rw [privileged_user r hu, ht, finish_ok]

theorem lprOp_user {i : Instr} {len : IntLen} {a : AReg} {src : Gen} {s t : State} (ha : a ∈ [AReg.psr, .intbase])
    (hu : s.flag .u = true) (ht : takeException .ill s.pc s = .ok t) : lprOp i len a src s = .next t := by
  simp only [lprOp, aregPrivileged_iff.2 ha, if_true]
  exact finish_privileged_user _ hu ht

theorem sprOp_user {i : Instr} {len : IntLen} {a : AReg} {dst : Gen} {s t : State} (ha : a ∈ [AReg.psr, .intbase])
    (hu : s.flag .u = true) (ht : takeException .ill s.pc s = .ok t) : sprOp i len a dst s = .next t := by
  simp only [sprOp, aregPrivileged_iff.2 ha, if_true]
  exact finish_privileged_user _ hu ht

/-- A division whose divisor is 0 takes the divide-by-zero trap, whatever it would compute (R431). -/
theorem divideOp_zero {i : Instr} {len : IntLen} {src dst : Gen} {s s1 t : State}
    (f : State → IntVal len → IntVal len → IntVal len × State) (h : readInt len src s = .ok (0#_, s1))
    (ht : takeException .dvz s.pc s = .ok t) : divideOp i len src dst s f = .next t := by
  simp only [divideOp, h, ok_bind, if_true, ht, finish_ok]

theorem execDeii_zero {len : IntLen} {src dst : Gen} {s s1 t : State} (h : readInt len src s = .ok (0#_, s1))
    (ht : takeException .dvz s.pc s = .ok t) : execDeii len src dst s = .next t := by
  simp only [execDeii, h, ok_bind, if_true, ht, finish_ok]

/-- Settles O45: the test for user mode, or for a divisor of 0, comes before anything else is done. -/
theorem operandAndModeTraps : Obligations.OperandAndModeTraps := by
  refine ⟨rfl, rfl, fun i s t hu hi ht => ?_, fun len src dst i s s1 t hread hi ht => ?_⟩
  · rcases hi with ⟨g, rfl | rfl | rfl | rfl⟩ | ⟨o, rfl⟩ | ⟨d, rfl⟩ | rfl | ⟨a, g, ha, hi⟩
    iterate 7 exact finish_privileged_user _ hu ht
    simp only [List.mem_cons, List.not_mem_nil, or_false] at hi
    rcases hi with rfl | rfl | rfl | rfl | rfl | rfl
    iterate 3 exact lprOp_user ha hu ht
    iterate 3 exact sprOp_user ha hu ht
  · simp only [List.mem_cons, List.not_mem_nil, or_false] at hi
    rcases hi with rfl | rfl | rfl | rfl | rfl
    iterate 4 exact divideOp_zero _ hread ht
    exact execDeii_zero hread ht

/-! ### Floating-point results -/

section

variable {s s1 s2 t u : State} {src dst : Gen} {i : Instr} {op : Config.FpuOp} {fl : FLen} {a b : Quad}

/-- What `askFpu` gives: the unit's answer cut to the result's width, and its FSR. -/
theorem askFpu_eq (op : Config.FpuOp) (m n : Nat) (args : List Quad) (s : State) : askFpu op m n args s =
    (((Config.fpuAnswer op m n s.fsr args).value.setWidth n).setWidth 64,
      { s with fsr := (Config.fpuAnswer op m n s.fsr args).fsr }) := rfl

theorem floatBinary_eq_next {l : Loc} (hc : s.cfg.getLsbD 1 = true) (hread : readFloat fl src s = .ok (a, s1))
    (hplace : place dst s1 = .ok l) (hb : l.readFloat fl s1 = .ok b)
    (hwrite : l.writeFloat fl (askFpu op (8 * fl.bytes) (8 * fl.bytes) [a, b] s1).1
      (askFpu op (8 * fl.bytes) (8 * fl.bytes) [a, b] s1).2 = .ok t) :
    floatBinary i op fl src dst s = .next (t.advance i) := by
  simp only [floatBinary, withFpu_enabled _ hc, hread, hplace, hb, hwrite, ok_bind, pure_eq_ok, finish_ok]

theorem floatUnary_eq_next {fl2 : FLen} (hc : s.cfg.getLsbD 1 = true) (hread : readFloat fl src s = .ok (a, s1))
    (hwrite : writeFloat fl2 dst (askFpu op (8 * fl.bytes) (8 * fl2.bytes) [a] s1).1
      (askFpu op (8 * fl.bytes) (8 * fl2.bytes) [a] s1).2 = .ok t) :
    floatUnary i op fl fl2 src dst s = .next (t.advance i) := by
  simp only [floatUnary, withFpu_enabled _ hc, hread, hwrite, ok_bind, pure_eq_ok, finish_ok]

theorem floatToInt_eq_next {len : IntLen} (hc : s.cfg.getLsbD 1 = true) (hread : readFloat fl src s = .ok (a, s1))
    (hwrite : writeInt len dst ((askFpu op (8 * fl.bytes) (lenBits len) [a] s1).1.setWidth (lenBits len))
      (askFpu op (8 * fl.bytes) (lenBits len) [a] s1).2 = .ok t) :
    floatToInt i op fl len src dst s = .next (t.advance i) := by
  simp only [floatToInt, withFpu_enabled _ hc, hread, hwrite, ok_bind, pure_eq_ok, finish_ok]

theorem floatAccumulate_eq_next (hc : s.cfg.getLsbD 1 = true) (h1 : readFloat fl src s = .ok (a, s1))
    (h2 : readFloat fl dst s1 = .ok (b, s2)) :
    floatAccumulate i op fl src dst s =
      .next (((askFpu op (8 * fl.bytes) 64 [a, b, s2.longReg .r0] s2).2.setLongReg .r0
        (askFpu op (8 * fl.bytes) 64 [a, b, s2.longReg .r0] s2).1).advance i) := by
  simp only [floatAccumulate, withFpu_enabled _ hc, h1, h2, ok_bind, pure_eq_ok, finish_ok]

theorem execMovf_eq_next (hc : s.cfg.getLsbD 1 = true) (hread : readFloat fl src s = .ok (a, s1))
    (hwrite : writeFloat fl dst a (askFpu .mov (8 * fl.bytes) (8 * fl.bytes) [a] s1).2 = .ok t) :
    execMovf fl src dst s = .next (t.advance (.movf fl src dst)) := by
  simp only [execMovf, withFpu_enabled _ hc, hread, hwrite, ok_bind, pure_eq_ok, finish_ok]

theorem execMovif_eq_next {len : IntLen} {n : IntVal len} (hc : s.cfg.getLsbD 1 = true)
    (hread : readInt len src s = .ok (n, s1))
    (hwrite : writeFloat fl dst (askFpu .movIF (lenBits len) (8 * fl.bytes) [n.setWidth 64] s1).1
      (askFpu .movIF (lenBits len) (8 * fl.bytes) [n.setWidth 64] s1).2 = .ok t) :
    execMovif fl len src dst s = .next (t.advance (.movif fl len src dst)) := by
  simp only [execMovif, withFpu_enabled _ hc, hread, hwrite, ok_bind, pure_eq_ok, finish_ok]

/-- The three bits of a comparison's answer are those the unit gives (log entry 19). -/
theorem execCmpf_eq_next (hc : s.cfg.getLsbD 1 = true) (h1 : readFloat fl src s = .ok (a, s1))
    (h2 : readFloat fl dst s1 = .ok (b, s2)) {ans : Config.FpuAnswer}
    (hans : ans = Config.fpuAnswer .cmp (8 * fl.bytes) 3 s2.fsr [a, b]) :
    execCmpf fl src dst s = .next (((({ s2 with fsr := ans.fsr }.setFlag .z (ans.value.getLsbD 0)).setFlag .n
      (ans.value.getLsbD 1)).setFlag .l (ans.value.getLsbD 2)).advance (.cmpf fl src dst)) := by
  have hbit : ∀ k < 3, ((ans.value.setWidth 3).setWidth 64).getLsbD k = ans.value.getLsbD k := fun k hk => by
    simp [hk, show k < 64 by omega]
  simp only [execCmpf, withFpu_enabled _ hc, h1, h2, askFpu_eq, ← hans, hbit 0 (by decide), hbit 1 (by decide),
    hbit 2 (by decide), ok_bind, pure_eq_ok, finish_ok]

end

/-- Settles O47: each clause is the equation of its skeleton, with the unit's answer under its own name. -/
theorem floatResult : Obligations.FloatResult := by
  rintro fl len src dst spare s s1 s2 t a b v l n m op i w ans hc rfl
  refine ⟨fun hread hplace hb hi hans hw => ?_, fun hread hi hans hw => ?_, fun hread hans hw => ?_,
    fun hread hans hw => ?_, fun hread hans hw => ?_, fun hread hi hans hw => ?_,
    fun h1 h2 => ⟨execCmpf_eq_next hc h1 h2, fun hv hi hans => ?_⟩, fun hread => ?_, fun hw => ?_⟩
  · subst hans
    simp only [List.mem_cons, Prod.mk.injEq, List.not_mem_nil, or_false] at hi
    rcases hi with ⟨rfl, rfl⟩ | ⟨rfl, rfl⟩ | ⟨rfl, rfl⟩ | ⟨rfl, rfl⟩ | ⟨rfl, rfl⟩
    iterate 5 exact floatBinary_eq_next hc hread hplace hb hw
  · subst hans
    simp only [List.mem_cons, Prod.mk.injEq, List.not_mem_nil, or_false] at hi
    rcases hi with ⟨rfl, rfl⟩ | ⟨rfl, rfl⟩ | ⟨rfl, rfl⟩ | ⟨rfl, rfl⟩
    iterate 3 exact floatUnary_eq_next hc hread hw
    exact execMovf_eq_next hc hread hw
  · subst hans
    exact floatUnary_eq_next hc hread hw
  · subst hans
    refine floatUnary_eq_next hc hread ?_
    rw [askFpu_eq, BitVec.setWidth_setWidth_of_le _ (by decide), BitVec.setWidth_eq]
    exact hw
  · subst hans
    exact execMovif_eq_next hc hread hw
  · subst hans
    have hlen : lenBits len ≤ 64 := (lenBits_le len).trans (by decide)
    have hcut := fun x : Quad => BitVec.setWidth_setWidth_of_le (x.setWidth (lenBits len)) hlen
    simp only [List.mem_cons, Prod.mk.injEq, List.not_mem_nil, or_false] at hi
    rcases hi with ⟨rfl, rfl⟩ | ⟨rfl, rfl⟩ | ⟨rfl, rfl⟩
    iterate 3 exact floatToInt_eq_next hc hread (by rw [askFpu_eq, hcut, BitVec.setWidth_eq]; exact hw)
  · subst hv hans
    simp only [List.mem_cons, Prod.mk.injEq, List.not_mem_nil, or_false] at hi
    rcases hi with ⟨rfl, rfl⟩ | ⟨rfl, rfl⟩
    iterate 2
      refine (floatAccumulate_eq_next hc h1 h2).trans ?_
      rw [askFpu_eq, BitVec.setWidth_eq, BitVec.setWidth_eq]
      rfl
  · simp only [exec, execLfsr, withFpu_enabled _ hc, hread, ok_bind, pure_eq_ok, finish_ok]
  · simp only [exec, execSfsr, withFpu_enabled _ hc]
    rw [show writeInt .d dst s.fsr s = .ok t from hw]
    rfl

end Sys2Proof.Proofs
end

section
/-! PROOFS about memory: a store and what it leaves alone (O14, O15), and the fetch of a byte stored to (O7). -/

namespace Sys2Proof.Proofs

open Sys2Proof.Machine Sys2Proof.Claims

/-! ### Stores and loads -/

/-- Settles O14: a store in memory's range completes, and its bytes are the value's. -/
theorem littleEndian : Obligations.LittleEndian := by
  intro s n a v hn hfit
  obtain ⟨t, ht⟩ := store_of_fits s v hfit
  obtain ⟨-, -, -, hbytes, -⟩ := store_spec ht
  refine ⟨t, ht, fun k hk => ?_, load_store_same ht hn⟩
  rw [hbytes k hk]
  exact BitVec.setWidth_ushiftRight_eq_extractLsb

/-- Past the first byte, an access that reaches 2^24 still reaches it. -/
theorem not_fits_add_one {a : Dword} {n : Nat} (ha : a.toNat < 2 ^ 24) (h : ¬Fits a (n + 1)) :
    0 < n ∧ ¬Fits (a + 1#32) n := by
  have hnext := toNat_add_one ha
  unfold Fits at h ⊢
  omega

/-- A load that reaches 2^24 is refused at its first byte there (R59). -/
theorem load_of_not_fits (s : State) {n : Nat} {a : Dword} (hn : 0 < n) (h : ¬Fits a n) :
    ∃ b, s.load n a = .error (.refuse (.addressHigh b)) := by
  induction n generalizing a with
  | zero => omega
  | succ n ih =>
    by_cases ha : a.toNat < 2 ^ 24
    · obtain ⟨hpos, hrest⟩ := not_fits_add_one ha h
      obtain ⟨b, hb⟩ := ih hpos hrest
      exact ⟨b, by simp only [State.load, loadByte_of_lt s ha, hb, ok_bind, error_bind]⟩
    · exact ⟨a, by simp only [State.load, loadByte_of_ge s (Nat.le_of_not_lt ha), error_bind]⟩

/-- So is a store; the bytes below 2^24 that it has written by then are lost with the step (R59). -/
theorem store_of_not_fits (s : State) {n : Nat} {a : Dword} (v : Quad) (hn : 0 < n) (h : ¬Fits a n) :
    ∃ b, s.store n a v = .error (.refuse (.addressHigh b)) := by
  induction n generalizing s a v with
  | zero => omega
  | succ n ih =>
    by_cases ha : a.toNat < 2 ^ 24
    · obtain ⟨hpos, hrest⟩ := not_fits_add_one ha h
      obtain ⟨b, hb⟩ := ih _ (v >>> 8) hpos hrest
      exact ⟨b, by rw [State.store, storeByte_of_lt s _ ha, ok_bind]; exact hb⟩
    · exact ⟨a, by simp only [State.store, storeByte_of_ge s _ (Nat.le_of_not_lt ha), error_bind]⟩

/-- Settles O15, by the frame of a store and the refusals of both accesses. -/
theorem storeFrame : Obligations.StoreFrame := by
  refine ⟨fun s t n a v h => ?_, fun s n a v hn h => ⟨load_of_not_fits s hn h, store_of_not_fits s v hn h⟩⟩
  obtain ⟨hframe, -, hkeep, -, hlist⟩ := store_spec h
  exact ⟨hkeep, hframe, hlist⟩

/-! ### Fetching a byte stored to -/

theorem isStale_of_mem {l : List Nat} {a n k : Nat} (hk : k ∈ l) (h1 : a ≤ k) (h2 : k < a + n) : isStale l a n = true :=
  List.any_eq_true.2 ⟨k, hk, by simp [h1, h2]⟩

/-- The fetch refuses an instruction with a stale byte (R66, D18). -/
theorem fetch_of_stale {s : State} {i : Instr} {rest : List Byte} (hpc : s.pc.toNat < 2 ^ 24)
    (hd : decode (fetchWindow s.mem s.pc.toNat) = .ok (i, rest)) (hs : isStale s.unflushed s.pc.toNat i.size = true) :
    fetch s = .error (.refuse .staleFetch) := by
  simp only [fetch, physical_of_lt hpc, ok_bind, hd, hs, Bool.not_true, require_false, error_bind]

theorem step_of_fetch_error {s : State} {e : Stop} (hw : s.waiting = false) (hf : fetch s = .error e) :
    step s = finish (.error e) := by
  simp only [step, hw, hf, Bool.false_eq_true, if_false]

/-- Settles O7: the stored byte is listed as unflushed, and lies in the instruction. -/
theorem staleFetchRefused : Obligations.StaleFetchRefused := by
  refine ⟨fun s t u a b i rest hstore hlist hw hpc hd ⟨hlow, hhigh⟩ => ?_, fun s => rfl⟩
  obtain ⟨-, rfl⟩ := storeByte_eq_ok.1 hstore
  have hmem : a.toNat ∈ u.unflushed := by
    rw [hlist]
    exact mem_insertAddress.2 (.inr rfl)
  rw [step_of_fetch_error hw (fetch_of_stale hpc hd (isStale_of_mem hmem hlow hhigh)), finish_refuse]

end Sys2Proof.Proofs
end

section
/-! PROOFS about single bits (O27): what leaves a bit at a value, and the six instructions as one rule. -/

namespace Sys2Proof.Proofs

open Sys2Proof.Machine Sys2Proof.Claims

/-! ### The addressed bit -/

/-- A sign-extended offset is the offset (R422). -/
theorem toInt_signExtend_offset {len : IntLen} (o : IntVal len) : (o.signExtend 32).toInt = o.toInt :=
  BitVec.toInt_signExtend_of_le (lenBits_le len)

theorem placeBit_reg {base : Gen} {len : IntLen} {o : IntVal len} {s : State} {r : Reg} {k : Nat}
    (h : place base s = .ok (.reg r)) (hk : (k : Int) = o.toInt % 32) :
    placeBit base (o.signExtend 32) s = .ok (.reg r k) := by
  simp only [placeBit, h, ok_bind, toInt_signExtend_offset, ← hk, Int.toNat_natCast]

theorem placeBit_mem {base : Gen} {len : IntLen} {o : IntVal len} {s : State} {a : Dword} {k : Nat}
    (h : place base s = .ok (.mem a)) (hk : (k : Int) = o.toInt % 8) :
    placeBit base (o.signExtend 32) s = .ok (.mem (a + BitVec.ofInt 32 (o.toInt / 8)) k) := by
  simp only [placeBit, h, ok_bind, bitByte, bitPos, toInt_signExtend_offset, ← hk, Int.toNat_natCast]

theorem getLsbD_putBit {w : Nat} (v : BitVec w) (k : Nat) (b : Bool) {j : Nat} (hj : j < w) :
    (putBit v k b).getLsbD j = if j = k then b else v.getLsbD j := by
  have hmask : (1#w <<< k).getLsbD j = decide (j = k) := by
    rw [← BitVec.twoPow_eq, BitVec.getLsbD_twoPow, Bool.eq_iff_iff]
    simp only [Bool.and_eq_true, decide_eq_true_eq]
    omega
  cases b with
  | false =>
    simp only [putBit, Bool.false_eq_true, if_false, BitVec.getLsbD_and, BitVec.getLsbD_not, hmask, hj]
    by_cases hk : j = k <;> simp [hk]
  | true =>
    simp only [putBit, if_true, BitVec.getLsbD_or, hmask]
    by_cases hk : j = k <;> simp [hk]

/-- In memory the byte of a bit is written whole, and may be stale in the instruction queue (R66). -/
theorem writeBit_mem (s : State) {a : Dword} (k : Nat) (b : Bool) (ha : a.toNat < 2 ^ 24) :
    (BitLoc.mem a k).write b s = .ok { s with
      mem := Memory.write s.mem a.toNat (putBit (Memory.read s.mem a.toNat) k b)
      unflushed := insertAddress s.unflushed a.toNat } := by
  rw [BitLoc.write, loadByte_of_lt s ha, ok_bind, storeByte_of_lt s _ ha]

theorem readBit_setFlag (l : BitLoc) (s : State) (fl : Flag) (b : Bool) : l.read (s.setFlag fl b) = l.read s := by
  cases l <;> rfl

/-! ### A bit at a value -/

/-- What of register or memory differs between two states: at most the bit, and it has this value in the second. -/
def BitIs (l : BitLoc) (b : Bool) (s t : State) : Prop :=
  match l with
  | .reg r k => t.mem = s.mem ∧ KeptRegs s t [r] ∧ ∀ j < 32, (t.reg r).getLsbD j = if j = k then b else (s.reg r).getLsbD j
  | .mem a k => t.regs = s.regs ∧ KeptOutside s t a 1 ∧
      ∀ j < 8, (Memory.read t.mem a.toNat).getLsbD j = if j = k then b else (Memory.read s.mem a.toNat).getLsbD j

/-- PSR and PC are as before, and the bit is at a value. -/
def PutsBit (l : BitLoc) (b : Bool) (s t : State) : Prop := t.psr = s.psr ∧ t.pc = s.pc ∧ BitIs l b s t

/-- A bit left alone is at the value it reads as. -/
theorem putsBit_of_read {l : BitLoc} {b : Bool} {s : State} (h : l.read s = .ok b) : PutsBit l b s s := by
  refine ⟨rfl, rfl, ?_⟩
  cases l with
  | reg r k =>
    rw [BitLoc.read, Except.ok.injEq] at h
    refine ⟨rfl, fun _ _ => rfl, fun j _ => ?_⟩
    split
    · next hj => rw [hj, h]
    · rfl
  | mem a k =>
    simp only [BitLoc.read, bind_eq_ok, loadByte_eq_ok, pure_eq_ok, Except.ok.injEq] at h
    obtain ⟨v, ⟨-, rfl⟩, h⟩ := h
    refine ⟨rfl, fun _ _ => rfl, fun j _ => ?_⟩
    split
    · next hj => rw [hj, h]
    · rfl

/-- A bit that can be read can be written, and then is at the value written. -/
theorem write_of_read {l : BitLoc} {old : Bool} {s : State} (new : Bool) (h : l.read s = .ok old) :
    ∃ t, l.write new s = .ok t ∧ PutsBit l new s t := by
  cases l with
  | reg r k =>
    refine ⟨_, rfl, psr_setReg .., pc_setReg .., mem_setReg .., fun q hq => ?_, fun j hj => ?_⟩
    · exact reg_setReg_ne s _ (by simpa using hq)
    · rw [reg_setReg_same, getLsbD_putBit _ _ _ hj]
  | mem a k =>
    simp only [BitLoc.read, bind_eq_ok, loadByte_eq_ok] at h
    obtain ⟨v, ⟨ha, -⟩, -⟩ := h
    refine ⟨_, writeBit_mem s k new ha, rfl, rfl, rfl, fun j hj => read_write_ne _ _ ?_, fun j hj => ?_⟩
    · omega
    · rw [read_write_same, getLsbD_putBit _ _ _ hj]

/-! ### The six instructions -/

theorem changeBitOp_of_read {i : Instr} {len : IntLen} {off base : Gen} {f : Bool → Bool} {s s1 : State} {o : IntVal len}
    {l : BitLoc} {new old : Bool} (hf : f old = new) (hread : readInt len off s = .ok (o, s1))
    (hl : placeBit base (o.signExtend 32) s1 = .ok l) (hb : l.read s1 = .ok old) :
    ∃ u, PutsBit l new (s1.setFlag .f old) u ∧ changeBitOp i len off base s f = .next (u.advance i) := by
  subst hf
  obtain ⟨u, hu, hput⟩ := write_of_read (f old) ((readBit_setFlag l s1 .f old).trans hb)
  exact ⟨u, hput, changeBitOp_eq_next.2 ⟨o, s1, hread, l, hl, old, hb, u, hu, rfl⟩⟩

theorem testBitOp_of_read {i : Instr} {len : IntLen} {off base : Gen} {s s1 : State} {o : IntVal len}
    {l : BitLoc} {old : Bool} (hread : readInt len off s = .ok (o, s1))
    (hl : placeBit base (o.signExtend 32) s1 = .ok l) (hb : l.read s1 = .ok old) :
    ∃ u, PutsBit l old (s1.setFlag .f old) u ∧ testBitOp i len off base s = .next (u.advance i) := by
  exact ⟨_, putsBit_of_read ((readBit_setFlag l s1 .f old).trans hb),
    testBitOp_eq_next.2 ⟨o, s1, hread, l, hl, old, hb, rfl⟩⟩

theorem exec_tbit (len : IntLen) (off base : Gen) (s : State) :
    exec (len.pick (.tbitb off base) (.tbitw off base) (.tbitd off base)) s =
      testBitOp (len.pick (.tbitb off base) (.tbitw off base) (.tbitd off base)) len off base s := by
  cases len <;> rfl

/-- Each of the six puts the old bit in F and leaves the bit at its new value, which for TBITi is the old one (R422 to R425,
R68). -/
theorem exec_bit {i : Instr} {len : IntLen} {off base : Gen} {s s1 : State} {o : IntVal len} {l : BitLoc} {new old : Bool}
    (hi : (i, new) ∈ [(Instr.sbiti len off base, true), (.sbitii len off base, true), (.cbiti len off base, false),
      (.cbitii len off base, false), (.ibiti len off base, !old),
      (len.pick (.tbitb off base) (.tbitw off base) (.tbitd off base), old)])
    (hread : readInt len off s = .ok (o, s1)) (hl : placeBit base (o.signExtend 32) s1 = .ok l)
    (hb : l.read s1 = .ok old) :
    ∃ u, PutsBit l new (s1.setFlag .f old) u ∧ exec i s = .next (u.advance i) := by
  simp only [List.mem_cons, Prod.mk.injEq, List.not_mem_nil, or_false] at hi
  rcases hi with ⟨rfl, rfl⟩ | ⟨rfl, rfl⟩ | ⟨rfl, rfl⟩ | ⟨rfl, rfl⟩ | ⟨rfl, rfl⟩ | ⟨rfl, rfl⟩
  iterate 5 exact changeBitOp_of_read rfl hread hl hb
  rw [exec_tbit]
  exact testBitOp_of_read hread hl hb

/-- F alone of PSR differs once it is put. -/
theorem keptPsr_putFlag {s t : State} {fl : Flag} {b : Bool} (h : t.psr = putFlag s.psr fl b) : KeptPsr s t [fl] := by
  intro k hk
  rw [h, getLsbD_putFlag, if_neg (Ne.symm (hk fl (by simp)))]

theorem flag_of_psr_putFlag {s t : State} {fl : Flag} {b : Bool} (h : t.psr = putFlag s.psr fl b) : t.flag fl = b := by
  rw [State.flag, h, getLsbD_putFlag, if_pos rfl]

/-- Settles O27: the place the statement computes is the bit's, and `exec_bit` runs the instruction on it. -/
theorem bitResult : Obligations.BitResult := by
  intro len off base s s1 o new old i hread hi
  refine ⟨fun r k hplace hk hold => ?_, fun a b k v hplace hb hk hfit hv hold => ?_⟩
  · obtain ⟨u, ⟨hpsr, hpc, hmem, hregs, hbits⟩, hexec⟩ :=
      exec_bit hi hread (placeBit_reg hplace hk) (congrArg Except.ok hold)
    exact ⟨_, hexec, flag_of_psr_putFlag hpsr, keptPsr_putFlag hpsr, hmem, hregs, hbits, congrArg (· + _) hpc⟩
  · subst hb hv
    have hold' : (BitLoc.mem (a + BitVec.ofInt 32 (o.toInt / 8)) k).read s1 = .ok old := by
      rw [BitLoc.read, loadByte_of_lt s1 hfit, ok_bind, hold]
      rfl
    obtain ⟨u, ⟨hpsr, hpc, hregs, hkeep, hbits⟩, hexec⟩ := exec_bit hi hread (placeBit_mem hplace hk) hold'
    exact ⟨_, hexec, flag_of_psr_putFlag hpsr, keptPsr_putFlag hpsr, hregs, hkeep, hbits, congrArg (· + _) hpc⟩

end Sys2Proof.Proofs
end

section
/-! PROOFS about control flow: calls and returns (O37), branches (O35, O36). -/

namespace Sys2Proof.Proofs

open Sys2Proof.Machine Sys2Proof.Claims

/-! ### Calls and returns -/

theorem exec_bsr {d : Disp} {s t : State} (h : s.flushQueue.push32 (s.pc + BitVec.ofNat 32 (Instr.bsr d).size) = .ok t) :
    exec (.bsr d) s = .next (t.setPc (s.pc + d.val)) := by
  simp only [exec, execBsr, State.returnAddress, h, ok_bind, pure_eq_ok, finish_ok]

theorem exec_jsr {g : Gen} {a : Dword} {s t : State} (ha : place g s = .ok (.mem a))
    (h : s.flushQueue.push32 (s.pc + BitVec.ofNat 32 (Instr.jsr g).size) = .ok t) :
    exec (.jsr g) s = .next (t.setPc a) := by
  simp only [exec, execJsr, State.returnAddress, effAddr_eq_ok.2 ha, h, ok_bind, pure_eq_ok, finish_ok]

/-- RET from a state whose stack holds a return address. -/
theorem exec_ret {d : Disp} {s : State} {ret : Dword} (h : s.load32 s.sp = .ok ret) :
    exec (.ret d) s = .next ((s.flushQueue.setSp (s.sp + 4#32 + d.val)).setPc ret) := by
  have hpop : s.flushQueue.pop32 = .ok (ret, s.flushQueue.setSp (s.sp + 4#32)) :=
    pop32_eq_ok.2 ⟨load32_of_mem h rfl, rfl⟩
  simp only [exec, execRet, hpop, ok_bind, pure_eq_ok, finish_ok, sp_setSp, setSp_setSp]

/-- Setting SP commutes with an update of PC, which is then written again. -/
theorem setPc_setSp_pc (s : State) (p q v : Dword) :
    (({ s with pc := p } : State).setSp v).setPc q = (s.setSp v).setPc q := by
  have hS : ({ s with pc := p } : State).flag .s = s.flag .s := rfl
  unfold State.setSp
  rw [hS]
  split <;> rfl

/-- Settles O37: the double-word a call pushes is the one RET pops. -/
theorem callReturn : Obligations.CallReturn := by
  intro s t ret hpush
  refine ⟨fun d hret => ?_, fun g a hplace hret => ?_, fun p d => ?_⟩
  · subst hret
    exact exec_bsr hpush
  · subst hret
    exact exec_jsr hplace hpush
  · obtain ⟨-, -, hload, -, -⟩ := push32_spec hpush
    have hsp : t.sp = s.sp - 4#32 := sp_push32 (s := s.flushQueue) hpush
    have htop : t.load32 t.sp = .ok ret := by
      rw [hsp]
      exact hload
    have hback : t.sp + 4#32 = s.sp := by rw [hsp, BitVec.sub_add_cancel]
    rw [exec_ret (s := { t with pc := p }) (load32_of_mem htop rfl), ← hback]
    exact congrArg Host.Outcome.next (setPc_setSp_pc t.flushQueue p ret _)

/-! ### Branches -/

theorem exec_bcond (c : Cond) (d : Disp) (s : State) :
    exec (.bcond c d) s = .next (if condHolds c s then branchBy d.val s else s.advance (.bcond c d)) := rfl

/-- Settles O35: the conditions are R416's table, row by row. -/
theorem branchResult : Obligations.BranchResult := by
  refine ⟨fun d s => rfl, fun c d s => ?_, fun s => rfl, rfl, fun d => rfl, fun c d => rfl, by decide⟩
  rw [exec_bcond]
  cases c <;> rfl

/-! ### Indexed branches -/

theorem exec_acb (len : IntLen) (q : Quick) (idx : Gen) (d : Disp) (s : State) :
    exec (len.pick (.acbb q idx d) (.acbw q idx d) (.acbd q idx d)) s =
      acbOp (len.pick (.acbb q idx d) (.acbw q idx d) (.acbd q idx d)) len q idx d s := by
  cases len <;> rfl

section

variable {i : Instr} {len : IntLen} {q : Quick} {idx : Gen} {d : Disp} {s t : State} {b : IntVal len} {l : Loc}

/-- At a sum of zero ACBi goes on to the next instruction (R426). -/
theorem acbOp_zero (hl : place idx s = .ok l) (hb : l.readInt len s = .ok b) (hsum : b + quickVal len q = 0#_)
    (hw : l.writeInt len 0#_ s = .ok t) : acbOp i len q idx d s = .next (t.advance i) := by
  simp only [acbOp, hl, hb, hsum, hw, ok_bind, if_true, pure_eq_ok, finish_ok]

/-- At any other sum it branches from its own address (R426), flushing the queue before its store (R66). -/
theorem acbOp_branch (hl : place idx s = .ok l) (hb : l.readInt len s = .ok b) (hsum : b + quickVal len q ≠ 0#_)
    (hw : l.writeInt len (b + quickVal len q) s.flushQueue = .ok t) :
    acbOp i len q idx d s = .next (t.setPc (t.pc + d.val)) := by
  simp only [acbOp, hl, hb, hsum, hw, ok_bind, if_false, pure_eq_ok, finish_ok]

end

/-- Writing a place leaves PC alone. -/
theorem pc_writeInt {l : Loc} {len : IntLen} {v : IntVal len} {s t : State} (h : l.writeInt len v s = .ok t) :
    t.pc = s.pc := by
  obtain ⟨hframe, -⟩ := l.write_spec h
  rw [hframe]

theorem exec_case {len : IntLen} {src : Gen} {s s1 : State} {v : IntVal len}
    (h : readInt len src s.flushQueue = .ok (v, s1)) :
    exec (len.pick (.caseb src) (.casew src) (.cased src)) s = .next (s1.setPc (s1.pc + v.signExtend 32)) := by
  have hop : exec (len.pick (.caseb src) (.casew src) (.cased src)) s = caseOp len src s := by cases len <;> rfl
  simp only [hop, caseOp, h, ok_bind, pure_eq_ok, finish_ok]

/-- Reading an integer operand leaves PC alone. -/
theorem pc_readInt {len : IntLen} {g : Gen} {v : IntVal len} {s t : State} (h : readInt len g s = .ok (v, t)) :
    t.pc = s.pc := by
  rw [readInt_frame h]

theorem exec_jump {g : Gen} {a : Dword} {s : State} (h : place g s = .ok (.mem a)) :
    exec (.jump g) s = .next (s.flushQueue.setPc a) := by
  simp only [exec, execJump, effAddr_eq_ok.2 h, ok_bind, pure_eq_ok, finish_ok]

/-- Settles O36: the address each branch is taken from is the instruction's own, as operands do not move PC. -/
theorem indexedBranchResult : Obligations.IndexedBranchResult := by
  refine ⟨fun len q idx d s t b l hl hb => ⟨fun hsum hw => ?_, fun hsum hw => ?_⟩, fun len src s s1 v h => ?_,
    fun dst s a h => exec_jump h⟩
  · rw [exec_acb, acbOp_zero hl hb hsum hw]
  · rw [exec_acb, acbOp_branch hl hb hsum hw, pc_writeInt hw]
    rfl
  · rw [exec_case h, pc_readInt h]
    rfl

end Sys2Proof.Proofs
end

section
/-! PROOFS about the encoding (O1 and O2), first part: what a word's fields are, and the codes that fields hold. -/

namespace Sys2Proof.Proofs

/-! ### The fields of a word -/

theorem append_eq_iff {m n : Nat} {a : BitVec m} {b : BitVec n} {w : BitVec (m + n)} :
    a ++ b = w ↔ w.extractLsb' n m = a ∧ w.extractLsb' 0 n = b := by
  constructor
  · rintro rfl
    exact ⟨BitVec.extractLsb'_append_eq_left, BitVec.extractLsb'_append_eq_right⟩
  · rintro ⟨rfl, rfl⟩
    rw [BitVec.extractLsb'_append_extractLsb'_eq_extractLsb' (Nat.zero_add n).symm, BitVec.extractLsb'_eq_self]

theorem extract_extract {k : Nat} (w : BitVec k) {s t l m : Nat} (h : s + l ≤ m) :
    (w.extractLsb' t m).extractLsb' s l = w.extractLsb' (t + s) l := by
  apply BitVec.eq_of_getLsbD_eq
  intro j hj
  simp only [BitVec.getLsbD_extractLsb', hj, decide_true, Bool.true_and, show s + j < m by omega, Nat.add_assoc]

/-- A field that is two fields side by side. -/
theorem extract_eq_append_iff {k m n s : Nat} {a : BitVec m} {b : BitVec n} {w : BitVec k} :
    w.extractLsb' s (m + n) = a ++ b ↔ w.extractLsb' (s + n) m = a ∧ w.extractLsb' s n = b := by
  rw [eq_comm, append_eq_iff, extract_extract w (by omega), extract_extract w (by omega), Nat.add_zero]

theorem fmt2Word_eq_iff {gen : BitVec 5} {short : BitVec 4} {op : BitVec 3} {i : BitVec 2} {w : BitVec 16} :
    fmt2Word gen short op i = w ↔ w.extractLsb' 11 5 = gen ∧ w.extractLsb' 7 4 = short ∧ w.extractLsb' 4 3 = op ∧
      w.extractLsb' 2 2 = 0b11#2 ∧ w.extractLsb' 0 2 = i := by
  rw [fmt2Word, append_eq_iff, extract_eq_append_iff, extract_eq_append_iff, extract_eq_append_iff]
  simp only [and_assoc, Nat.reduceAdd]

theorem fmt3Word_eq_iff {gen : BitVec 5} {op : BitVec 4} {i : BitVec 2} {w : BitVec 16} :
    fmt3Word gen op i = w ↔ w.extractLsb' 11 5 = gen ∧ w.extractLsb' 7 4 = op ∧ w.extractLsb' 2 5 = 0b11111#5 ∧
      w.extractLsb' 0 2 = i := by
  rw [fmt3Word, append_eq_iff, extract_eq_append_iff, extract_eq_append_iff]
  simp only [and_assoc, Nat.reduceAdd]

theorem fmt4Word_eq_iff {gen1 gen2 : BitVec 5} {op : BitVec 4} {i : BitVec 2} {w : BitVec 16} :
    fmt4Word gen1 gen2 op i = w ↔ w.extractLsb' 11 5 = gen1 ∧ w.extractLsb' 6 5 = gen2 ∧ w.extractLsb' 2 4 = op ∧
      w.extractLsb' 0 2 = i := by
  rw [fmt4Word, append_eq_iff, extract_eq_append_iff, extract_eq_append_iff]
  simp only [and_assoc, Nat.reduceAdd]

theorem fmt5Word_eq_iff {short op : BitVec 4} {i : BitVec 2} {w : BitVec 24} :
    fmt5Word short op i = w ↔ w.extractLsb' 19 5 = 0b00000#5 ∧ w.extractLsb' 15 4 = short ∧ w.extractLsb' 14 1 = 0b0#1 ∧
      w.extractLsb' 10 4 = op ∧ w.extractLsb' 8 2 = i ∧ w.extractLsb' 0 8 = 0x0E#8 := by
  rw [fmt5Word, append_eq_iff, extract_eq_append_iff, extract_eq_append_iff, extract_eq_append_iff,
    extract_eq_append_iff]
  simp only [and_assoc, Nat.reduceAdd]

theorem fmt6Word_eq_iff {gen1 gen2 : BitVec 5} {op : BitVec 4} {i : BitVec 2} {first : BitVec 8} {w : BitVec 24} :
    fmt6Word gen1 gen2 op i first = w ↔ w.extractLsb' 19 5 = gen1 ∧ w.extractLsb' 14 5 = gen2 ∧
      w.extractLsb' 10 4 = op ∧ w.extractLsb' 8 2 = i ∧ w.extractLsb' 0 8 = first := by
  rw [fmt6Word, append_eq_iff, extract_eq_append_iff, extract_eq_append_iff, extract_eq_append_iff]
  simp only [and_assoc, Nat.reduceAdd]

theorem fmt8Word_eq_iff {gen1 gen2 : BitVec 5} {reg : BitVec 3} {opHi : BitVec 1} {i opLo : BitVec 2} {w : BitVec 24} :
    fmt8Word gen1 gen2 reg opHi i opLo = w ↔ w.extractLsb' 19 5 = gen1 ∧ w.extractLsb' 14 5 = gen2 ∧
      w.extractLsb' 11 3 = reg ∧ w.extractLsb' 10 1 = opHi ∧ w.extractLsb' 8 2 = i ∧ w.extractLsb' 6 2 = opLo ∧
      w.extractLsb' 0 6 = 0b101110#6 := by
  rw [fmt8Word, append_eq_iff, extract_eq_append_iff, extract_eq_append_iff, extract_eq_append_iff,
    extract_eq_append_iff, extract_eq_append_iff]
  simp only [and_assoc, Nat.reduceAdd]

theorem fmt9Word_eq_iff {gen1 gen2 : BitVec 5} {op : BitVec 3} {f : BitVec 1} {i : BitVec 2} {w : BitVec 24} :
    fmt9Word gen1 gen2 op f i = w ↔ w.extractLsb' 19 5 = gen1 ∧ w.extractLsb' 14 5 = gen2 ∧ w.extractLsb' 11 3 = op ∧
      w.extractLsb' 10 1 = f ∧ w.extractLsb' 8 2 = i ∧ w.extractLsb' 0 8 = 0x3E#8 := by
  rw [fmt9Word, append_eq_iff, extract_eq_append_iff, extract_eq_append_iff, extract_eq_append_iff,
    extract_eq_append_iff]
  simp only [and_assoc, Nat.reduceAdd]

/-! ### The codes of fields -/

theorem eq_ofNat_of_toNat {k o : Nat} {v : BitVec k} (h : v.toNat = o) : v = BitVec.ofNat k o := by
  rw [← h, BitVec.ofNat_toNat, BitVec.setWidth_eq]

@[simp] theorem ofCode_code_reg (r : Reg) : Reg.ofCode r.code = r := by cases r <;> rfl

@[simp] theorem code_ofCode_reg (c : BitVec 3) : (Reg.ofCode c).code = c := by revert c; decide

@[simp] theorem ofCode_code_cond (c : Cond) : Cond.ofCode c.code = c := by cases c <;> rfl

@[simp] theorem code_ofCode_cond (c : BitVec 4) : (Cond.ofCode c).code = c := by revert c; decide

@[simp] theorem ofBits_bits_scale (k : Scale) : Scale.ofBits k.bits = k := by cases k <;> rfl

@[simp] theorem bits_ofBits_scale (c : BitVec 2) : (Scale.ofBits c).bits = c := by revert c; decide

@[simp] theorem ofBit_bit (f : FLen) : FLen.ofBit f.bit = f := by cases f <;> rfl

@[simp] theorem bit_ofBit (c : BitVec 1) : (FLen.ofBit c).bit = c := by revert c; decide

@[simp] theorem ofBits_bits_intLen (n : IntLen) : IntLen.ofBits n.bits = .ok n := by cases n <;> rfl

/-- A field of a length holds its code: 10 is none (R89). -/
theorem ofBits_intLen_eq_ok {c : BitVec 2} {n : IntLen} : IntLen.ofBits c = .ok n ↔ n.bits = c := by
  cases n <;> revert c <;> decide

@[simp] theorem ofCode_code_areg (a : AReg) : AReg.ofCode a.code = .ok a := by cases a <;> rfl

theorem ofCode_areg_eq_ok {c : BitVec 4} {a : AReg} : AReg.ofCode c = .ok a ↔ a.code = c := by
  cases a <;> revert c <;> decide

@[simp] theorem ofBits_bits_stopRule (u : StopRule) : StopRule.ofBits u.bits = .ok u := by cases u <;> rfl

theorem ofBits_stopRule_eq_ok {c : BitVec 2} {u : StopRule} : StopRule.ofBits c = .ok u ↔ u.bits = c := by
  cases u <;> revert c <;> decide

end Sys2Proof.Proofs
end

section
/-! PROOFS about the encoding, second part: displacements, immediates, modes and general operands (R95). What the decoder
takes from the front of the bytes is exactly what the encoder writes. -/

namespace Sys2Proof.Proofs

/-! ### What a decoding step answers -/

theorem dec_bind_eq_ok {α β : Type} {x : Dec α} {f : α → Dec β} {b : β} :
    (x >>= f) = .ok b ↔ ∃ a, x = .ok a ∧ f a = .ok b := by
  cases x <;> simp [bind, Except.bind]

@[simp] theorem dec_ok_bind {α β : Type} (a : α) (f : α → Dec β) : ((.ok a : Dec α) >>= f) = f a := rfl

@[simp] theorem dec_pure {α : Type} (a : α) : (pure a : Dec α) = .ok a := rfl

@[simp] theorem nextByte_cons (b : Byte) (bs : List Byte) : nextByte (b :: bs) = .ok (b, bs) := rfl

theorem nextByte_eq_ok {bs rest : List Byte} {b : Byte} : nextByte bs = .ok (b, rest) ↔ bs = b :: rest := by
  cases bs <;> simp [nextByte]

/-! ### Displacements -/

/-- The first byte of a displacement in one byte. -/
theorem dispHead_one {b : Byte} {v : BitVec 7} : 0#1 ++ v = b ↔ b.getLsbD 7 = false ∧ b.extractLsb' 0 7 = v := by
  have htop : b.extractLsb' 7 1 = 0#1 ↔ b.getLsbD 7 = false := by revert b; decide
  rw [append_eq_iff, htop]

/-- The first byte of a displacement in two bytes. -/
theorem dispHead_two {b : Byte} {v : BitVec 6} :
    0b10#2 ++ v = b ↔ ¬b.getLsbD 7 = false ∧ b.getLsbD 6 = false ∧ b.extractLsb' 0 6 = v := by
  have htop : b.extractLsb' 6 2 = 0b10#2 ↔ ¬b.getLsbD 7 = false ∧ b.getLsbD 6 = false := by revert b; decide
  rw [append_eq_iff, htop, and_assoc]

/-- The first byte of a displacement in four bytes. -/
theorem dispHead_four {b : Byte} {v : BitVec 6} :
    0b11#2 ++ v = b ↔ ¬b.getLsbD 7 = false ∧ ¬b.getLsbD 6 = false ∧ b.extractLsb' 0 6 = v := by
  have htop : b.extractLsb' 6 2 = 0b11#2 ↔ ¬b.getLsbD 7 = false ∧ ¬b.getLsbD 6 = false := by revert b; decide
  rw [append_eq_iff, htop, and_assoc]

/-- A displacement's bytes are taken as that displacement. -/
theorem takeDisp_encode {d : Disp} (h : d.wf = true) (rest : List Byte) : takeDisp (d.encode ++ rest) = .ok (d, rest) := by
  cases d with
  | one v =>
    obtain ⟨h7, hv⟩ := dispHead_one.1 (Eq.refl (0#1 ++ v))
    simp only [Disp.encode, takeDisp, List.cons_append, List.nil_append, nextByte_cons, dec_ok_bind, dec_pure, if_pos h7, hv]
  | two v =>
    obtain ⟨h7, h6, hv⟩ := dispHead_two.1 (Eq.refl (0b10#2 ++ v.extractLsb' 8 6))
    have hjoin : v.extractLsb' 8 6 ++ v.extractLsb' 0 8 = v := append_eq_iff.2 ⟨rfl, rfl⟩
    simp only [Disp.encode, takeDisp, List.cons_append, List.nil_append, nextByte_cons, dec_ok_bind, dec_pure, if_neg h7,
      if_pos h6, hv, hjoin]
  | four v =>
    obtain ⟨h7, h6, hv⟩ := dispHead_four.1 (Eq.refl (0b11#2 ++ v.extractLsb' 24 6))
    have hjoin : v.extractLsb' 24 6 ++ v.extractLsb' 16 8 ++ v.extractLsb' 8 8 ++ v.extractLsb' 0 8 = v := by
      rw [append_eq_iff, extract_eq_append_iff, extract_eq_append_iff]
      exact ⟨⟨⟨rfl, rfl⟩, rfl⟩, rfl⟩
    have hreserved : 0b11#2 ++ v.extractLsb' 24 6 ≠ 0xE0#8 := fun he => by
      obtain ⟨-, -, hlow⟩ := dispHead_four.1 he
      simp [Disp.wf, ← hlow] at h
    simp only [Disp.encode, takeDisp, List.cons_append, List.nil_append, nextByte_cons, dec_ok_bind, dec_pure, if_neg h7,
      if_neg h6, if_neg hreserved, hv, hjoin]

/-- Bytes taken as a displacement are its bytes. -/
theorem eq_of_takeDisp {bs rest : List Byte} {d : Disp} (h : takeDisp bs = .ok (d, rest)) : bs = d.encode ++ rest := by
  simp only [takeDisp, dec_bind_eq_ok, nextByte_eq_ok, Prod.exists] at h
  obtain ⟨b0, bs1, rfl, h⟩ := h
  split at h
  · next h7 =>
    cases h
    rw [Disp.encode, dispHead_one.2 ⟨h7, rfl⟩]
    rfl
  · next h7 =>
    simp only [dec_bind_eq_ok, nextByte_eq_ok, Prod.exists] at h
    obtain ⟨b1, bs2, rfl, h⟩ := h
    split at h
    · next h6 =>
      cases h
      rw [Disp.encode, BitVec.extractLsb'_append_eq_left, BitVec.extractLsb'_append_eq_right,
        dispHead_two.2 ⟨h7, h6, rfl⟩]
      rfl
    · next h6 =>
      split at h
      · cases h
      · simp only [dec_bind_eq_ok, nextByte_eq_ok, Prod.exists] at h
        obtain ⟨b2, bs3, rfl, b3, bs4, rfl, h⟩ := h
        cases h
        have hfields := append_eq_iff.1 (Eq.refl (b0.extractLsb' 0 6 ++ b1 ++ b2 ++ b3))
        rw [extract_eq_append_iff, extract_eq_append_iff] at hfields
        obtain ⟨⟨⟨e0, e1⟩, e2⟩, e3⟩ := hfields
        simp only [Nat.reduceAdd] at e0 e1 e2 e3
        rw [Disp.encode, e0, e1, e2, e3, dispHead_four.2 ⟨h7, h6, rfl⟩]
        rfl

/-! ### Immediates -/

theorem shiftRight_succ_byte (v : Quad) (n : Nat) :
    (v >>> (8 * (n + 1))) <<< 8 ||| ((v >>> (8 * n)).setWidth 8).setWidth 64 = v >>> (8 * n) := by
  apply BitVec.eq_of_getLsbD_eq
  intro j hj
  simp only [BitVec.getLsbD_or, BitVec.getLsbD_shiftLeft, BitVec.getLsbD_ushiftRight, BitVec.getLsbD_setWidth]
  by_cases h : j < 8
  · simp [h, hj]
  · simp [h, hj, show 8 * (n + 1) + (j - 8) = 8 * n + j by omega]

/-- The bytes of a value are taken onto the bits above them. -/
theorem takeImm_bigEndian (v : Quad) (n : Nat) (rest : List Byte) :
    takeImm (v >>> (8 * n)) n (bigEndian v n ++ rest) = .ok (v, rest) := by
  induction n with
  | zero => simp [takeImm, bigEndian]
  | succ n ih => simp only [bigEndian, takeImm, List.cons_append, nextByte_cons, dec_ok_bind, shiftRight_succ_byte, ih]

/-- Bytes taken as an immediate of up to eight bytes are its low bytes, and the bits above them are what had been read. -/
theorem eq_of_takeImm {acc v : Quad} {n : Nat} {bs rest : List Byte} (hn : n ≤ 8) (h : takeImm acc n bs = .ok (v, rest)) :
    bs = bigEndian v n ++ rest ∧ ∀ j, 8 * n + j < 64 → v.getLsbD (8 * n + j) = acc.getLsbD j := by
  induction n generalizing acc bs with
  | zero =>
    cases h
    exact ⟨rfl, fun j _ => by simp⟩
  | succ n ih =>
    simp only [takeImm, dec_bind_eq_ok, nextByte_eq_ok, Prod.exists] at h
    obtain ⟨b, bs1, rfl, h⟩ := h
    obtain ⟨rfl, hbits⟩ := ih (by omega) h
    have hbyte : (v >>> (8 * n)).setWidth 8 = b := by
      apply BitVec.eq_of_getLsbD_eq
      intro j hj
      rw [BitVec.getLsbD_setWidth, BitVec.getLsbD_ushiftRight, hbits j (by omega)]
      simp [hj, show j < 64 by omega]
    refine ⟨by rw [bigEndian, hbyte]; rfl, fun j hj => ?_⟩
    rw [show 8 * (n + 1) + j = 8 * n + (j + 8) by omega, hbits (j + 8) (by omega)]
    simp [show j + 8 < 64 by omega, -BitVec.getLsbD_eq_getElem]

theorem shiftRight_of_lt {v : Quad} {n : Nat} (h : v.toNat < 256 ^ n) : v >>> (8 * n) = 0#64 := by
  apply BitVec.eq_of_toNat_eq
  rw [BitVec.toNat_ushiftRight, Nat.shiftRight_eq_div_pow, pow_mul]
  exact Nat.div_eq_of_lt h

/-! ### Modes -/

theorem withDisp_encode (k : Disp → BaseMode) {d : Disp} (h : d.wf = true) (rest : List Byte) :
    withDisp k (d.encode ++ rest) = .ok (k d, rest) := by
  simp only [withDisp, takeDisp_encode h, dec_ok_bind, dec_pure]

theorem withDisps_encode (k : Disp → Disp → BaseMode) {d1 d2 : Disp} (h : (d1.wf && d2.wf) = true) (rest : List Byte) :
    withDisps k (d1.encode ++ d2.encode ++ rest) = .ok (k d1 d2, rest) := by
  obtain ⟨h1, h2⟩ := Bool.and_eq_true_iff.1 h
  simp only [withDisps, List.append_assoc, takeDisp_encode h1, takeDisp_encode h2, dec_ok_bind, dec_pure]

theorem eq_of_withDisp {k : Disp → BaseMode} {bs rest : List Byte} {m : BaseMode} (h : withDisp k bs = .ok (m, rest)) :
    ∃ d, m = k d ∧ bs = d.encode ++ rest := by
  simp only [withDisp, dec_bind_eq_ok, Prod.exists] at h
  obtain ⟨d, bs1, hd, h⟩ := h
  cases h
  exact ⟨d, rfl, eq_of_takeDisp hd⟩

theorem eq_of_withDisps {k : Disp → Disp → BaseMode} {bs rest : List Byte} {m : BaseMode}
    (h : withDisps k bs = .ok (m, rest)) : ∃ d1 d2, m = k d1 d2 ∧ bs = d1.encode ++ d2.encode ++ rest := by
  simp only [withDisps, dec_bind_eq_ok, Prod.exists] at h
  obtain ⟨d1, bs1, h1, d2, bs2, h2, h⟩ := h
  cases h
  rw [eq_of_takeDisp h1, eq_of_takeDisp h2, ← List.append_assoc]
  exact ⟨d1, d2, rfl, rfl⟩

/-- A mode's extension is taken as that mode. -/
theorem takeMode_extBytes {m : BaseMode} {n : Nat} (h : m.wf n = true) (rest : List Byte) :
    takeMode m.code n (m.extBytes n ++ rest) = .ok (m, rest) := by
  cases m with
  | reg r => cases r <;> rfl
  | regRel r d => cases r <;> (dsimp only [BaseMode.code]; exact withDisp_encode (.regRel _) h rest)
  | memRel b d1 d2 => cases b <;> (dsimp only [BaseMode.code]; exact withDisps_encode (.memRel _) h rest)
  | imm v =>
    have hv := takeImm_bigEndian v n rest
    rw [shiftRight_of_lt (of_decide_eq_true h)] at hv
    dsimp only [BaseMode.code]
    exact Eq.trans (b := takeImm 0#64 n (bigEndian v n ++ rest) >>= fun p => .ok (.imm p.1, p.2)) rfl (by rw [hv]; rfl)
  | absolute d => dsimp only [BaseMode.code]; exact withDisp_encode .absolute h rest
  | external d1 d2 => dsimp only [BaseMode.code]; exact withDisps_encode .external h rest
  | tos => rfl
  | space b d => cases b <;> (dsimp only [BaseMode.code]; exact withDisp_encode (.space _) h rest)

/-- Bytes taken as a mode are its extension, and the code was the mode's. -/
theorem eq_of_takeMode {c : BitVec 5} {n : Nat} {bs rest : List Byte} {m : BaseMode} (hn : n ≤ 8)
    (h : takeMode c n bs = .ok (m, rest)) : m.code = c ∧ bs = m.extBytes n ++ rest := by
  have hcode : ∀ {a b : Nat}, (c.extractLsb' 3 2).toNat = a → (c.extractLsb' 0 3).toNat = b →
      BitVec.ofNat 2 a ++ BitVec.ofNat 3 b = c := fun ha hb =>
    append_eq_iff.2 ⟨eq_ofNat_of_toNat ha, eq_ofNat_of_toNat hb⟩
  have hreg : (Reg.ofCode (c.extractLsb' 0 3)).code = c.extractLsb' 0 3 := code_ofCode_reg _
  simp only [takeMode] at h
  split at h
  · next hi =>
    cases h
    exact ⟨append_eq_iff.2 ⟨BitVec.eq_of_toNat_eq hi, hreg.symm⟩, rfl⟩
  · next hi =>
    obtain ⟨d, rfl, rfl⟩ := eq_of_withDisp h
    exact ⟨append_eq_iff.2 ⟨BitVec.eq_of_toNat_eq hi, hreg.symm⟩, rfl⟩
  · next hi =>
    split at h
    · next lo =>
      obtain ⟨d1, d2, rfl, rfl⟩ := eq_of_withDisps h
      exact ⟨hcode hi lo, rfl⟩
    · next lo =>
      obtain ⟨d1, d2, rfl, rfl⟩ := eq_of_withDisps h
      exact ⟨hcode hi lo, rfl⟩
    · next lo =>
      obtain ⟨d1, d2, rfl, rfl⟩ := eq_of_withDisps h
      exact ⟨hcode hi lo, rfl⟩
    · next lo =>
      simp only [dec_bind_eq_ok, Prod.exists] at h
      obtain ⟨v, bs1, hv, h⟩ := h
      cases h
      exact ⟨hcode hi lo, (eq_of_takeImm hn hv).1⟩
    · next lo =>
      obtain ⟨d, rfl, rfl⟩ := eq_of_withDisp h
      exact ⟨hcode hi lo, rfl⟩
    · next lo =>
      obtain ⟨d1, d2, rfl, rfl⟩ := eq_of_withDisps h
      exact ⟨hcode hi lo, rfl⟩
    · next lo =>
      cases h
      exact ⟨hcode hi lo, rfl⟩
    · cases h
  · next h0 h1 h2 =>
    have hi : (c.extractLsb' 3 2).toNat = 3 := by
      obtain ⟨h0, h1, h2⟩ : (c.extractLsb' 3 2).toNat ≠ 0 ∧ (c.extractLsb' 3 2).toNat ≠ 1 ∧ (c.extractLsb' 3 2).toNat ≠ 2 :=
    ⟨h0, h1, h2⟩
      have := (c.extractLsb' 3 2).isLt
      omega
    split at h
    · next lo =>
      obtain ⟨d, rfl, rfl⟩ := eq_of_withDisp h
      exact ⟨hcode hi lo, rfl⟩
    · next lo =>
      obtain ⟨d, rfl, rfl⟩ := eq_of_withDisp h
      exact ⟨hcode hi lo, rfl⟩
    · next lo =>
      obtain ⟨d, rfl, rfl⟩ := eq_of_withDisp h
      exact ⟨hcode hi lo, rfl⟩
    · next lo =>
      obtain ⟨d, rfl, rfl⟩ := eq_of_withDisp h
      exact ⟨hcode hi lo, rfl⟩
    · cases h

/-! ### General operands -/

/-- The mode that a general operand's extension belongs to. -/
def baseMode : Gen → BaseMode
  | .plain m => m
  | .scaled m _ _ => m

/-- The index register and the scale of a general operand. -/
def indexPart : Gen → Option (Reg × Scale)
  | .plain _ => none
  | .scaled _ x k => some (x, k)

@[simp] theorem build_baseMode (g : Gen) : Gen.build (baseMode g) (indexPart g) = g := by cases g <;> rfl

/-- The index byte of an operand is taken as its index and the code of its mode. -/
theorem takeIndex_indexBytes {g : Gen} {n : Nat} (h : g.wf n = true) (rest : List Byte) :
    takeIndex g.code (g.indexBytes ++ rest) = .ok (((baseMode g).code, indexPart g), rest) := by
  cases g with
  | plain m =>
    have htop : m.code.extractLsb' 2 3 ≠ 0b111#3 := by
      cases m with
      | reg r | regRel r _ => cases r <;> (dsimp only [BaseMode.code]; decide)
      | memRel b _ _ | space b _ => cases b <;> (dsimp only [BaseMode.code]; decide)
      | _ => dsimp only [BaseMode.code]; decide
    exact if_neg htop
  | scaled m x k =>
    obtain ⟨htop, hk⟩ := append_eq_iff.1 (Eq.refl (0b111#3 ++ k.bits))
    obtain ⟨hm, hx⟩ := append_eq_iff.1 (Eq.refl (m.code ++ x.code))
    have himm : m.code ≠ 0b10100#5 := by
      obtain ⟨-, hindex⟩ := Bool.and_eq_true_iff.1 h
      cases m with
      | reg r | regRel r _ => cases r <;> (dsimp only [BaseMode.code]; decide)
      | memRel b _ _ | space b _ => cases b <;> (dsimp only [BaseMode.code]; decide)
      | imm v => cases hindex
      | _ => dsimp only [BaseMode.code]; decide
    simp only [Gen.code, Gen.indexBytes, takeIndex, htop, hm, hx, hk, if_true, if_neg himm, List.cons_append, List.nil_append,
      nextByte_cons, dec_ok_bind, dec_pure, ofCode_code_reg, ofBits_bits_scale, baseMode, indexPart]

theorem takeMode_gen {g : Gen} {n : Nat} (h : g.wf n = true) (rest : List Byte) :
    takeMode (baseMode g).code n (g.extBytes n ++ rest) = .ok (baseMode g, rest) := by
  cases g with
  | plain m => exact takeMode_extBytes h rest
  | scaled m x k => exact takeMode_extBytes (Bool.and_eq_true_iff.1 h).1 rest

/-- An index byte and a mode's extension, when both are taken, are those of the operand they build. -/
theorem eq_of_takeGen {c : BitVec 5} {n : Nat} {hd : BitVec 5 × Option (Reg × Scale)} {m : BaseMode}
    {bs bs1 cs cs1 : List Byte} (hn : n ≤ 8) (hindex : takeIndex c bs = .ok (hd, bs1))
    (hmode : takeMode hd.1 n cs = .ok (m, cs1)) :
    (Gen.build m hd.2).code = c ∧ bs = (Gen.build m hd.2).indexBytes ++ bs1 ∧
      cs = (Gen.build m hd.2).extBytes n ++ cs1 := by
  obtain ⟨hcode, rfl⟩ := eq_of_takeMode hn hmode
  simp only [takeIndex] at hindex
  split at hindex
  · next htop =>
    simp only [dec_bind_eq_ok, nextByte_eq_ok, Prod.exists] at hindex
    obtain ⟨b, bs2, rfl, h⟩ := hindex
    split at h
    · cases h
    · cases h
      have hbyte : m.code ++ b.extractLsb' 0 3 = b := append_eq_iff.2 ⟨hcode.symm, rfl⟩
      refine ⟨?_, ?_, rfl⟩
      · rw [Gen.build, Gen.code, bits_ofBits_scale]
        exact append_eq_iff.2 ⟨htop, rfl⟩
      · rw [Gen.build, Gen.indexBytes, code_ofCode_reg, hbyte]
        rfl
  · cases hindex
    exact ⟨hcode, rfl, rfl⟩

end Sys2Proof.Proofs
end

section
/-! PROOFS about the encoding, third part: how an instruction is laid out (R82), and what the decoder's shared pieces for
instructions with operands read of such a layout. -/

namespace Sys2Proof.Proofs

/-! ### Layouts -/

/-- The index bytes of all operands, then their extensions (R82). -/
def operandBytes (ops : List (Gen × Nat)) : List Byte :=
  ops.flatMap (fun o => o.1.indexBytes) ++ ops.flatMap (fun o => o.1.extBytes o.2)

/-- The instruction's encoding: its basic bytes, its general operands with their lengths, and the bytes after them. -/
structure Laid (i : Instr) (basic : List Byte) (ops : List (Gen × Nat)) (tail : List Byte) : Prop where
  basic : i.basic = basic
  operands : i.operands.map (fun o => (o.gen, o.bytes)) = ops
  tail : i.tail = tail

section
variable {i : Instr} {basic tail : List Byte} {ops : List (Gen × Nat)}

theorem Laid.encode_eq (h : Laid i basic ops tail) : encode i = basic ++ (operandBytes ops ++ tail) := by
  rw [← h.basic, ← h.operands, ← h.tail]
  simp only [encode, operandBytes, List.flatMap_map, List.append_assoc]

theorem Laid.bytes_le (h : Laid i basic ops tail) : ∀ o ∈ ops, o.2 ≤ 8 := by
  rw [← h.operands]
  rintro _ ho
  obtain ⟨o, hmem, rfl⟩ := List.mem_map.1 ho
  exact operands_bytes_le i o hmem

theorem Laid.gen_wf (h : Laid i basic ops tail) (hi : i.wf = true) : ∀ o ∈ ops, o.1.wf o.2 = true := by
  rw [← h.operands]
  rintro _ ho
  obtain ⟨o, hmem, rfl⟩ := List.mem_map.1 ho
  obtain ⟨hall, -⟩ := Bool.and_eq_true_iff.1 hi
  exact (Bool.and_eq_true_iff.1 (List.all_eq_true.1 hall o hmem)).1

end

/-! ### From bytes to a layout -/

section
variable {x : Instr} {bs rest : List Byte} {c c1 c2 : BitVec 5} {n n1 n2 : Nat}

theorem sound_plain {basic : List Byte} (hl : Laid x basic [] []) : basic ++ bs = encode x ++ bs := by
  rw [hl.encode_eq]
  simp [operandBytes]

theorem sound_byte {b : Byte} {basic : List Byte} (hl : Laid x basic [] [b]) : basic ++ b :: bs = encode x ++ bs := by
  rw [hl.encode_eq]
  simp [operandBytes]

theorem sound_disp {k : Disp → Instr} {basic pre : List Byte} (h : decodeDisp k bs = .ok (x, rest))
    (hl : ∀ d, Laid (k d) basic [] (pre ++ d.encode)) : basic ++ (pre ++ bs) = encode x ++ rest := by
  simp only [decodeDisp, dec_bind_eq_ok, Prod.exists] at h
  obtain ⟨d, bs1, hd, h⟩ := h
  cases h
  rw [eq_of_takeDisp hd, (hl d).encode_eq]
  simp [operandBytes]

theorem sound_gen {k : Gen → Instr} {basic : BitVec 5 → List Byte} (h : decodeGen k c n bs = .ok (x, rest))
    (hl : ∀ g, Laid (k g) (basic g.code) [(g, n)] []) : basic c ++ bs = encode x ++ rest := by
  have hn : n ≤ 8 := (hl (.plain .tos)).bytes_le _ List.mem_cons_self
  simp only [decodeGen, dec_bind_eq_ok, Prod.exists] at h
  obtain ⟨c', ix, bs1, hi, m, bs2, hm, h⟩ := h
  cases h
  obtain ⟨rfl, rfl, rfl⟩ := eq_of_takeGen hn hi hm
  rw [(hl _).encode_eq]
  simp [operandBytes]

theorem sound_genDisp {k : Gen → Disp → Instr} {basic : BitVec 5 → List Byte}
    (h : decodeGenDisp k c n bs = .ok (x, rest)) (hl : ∀ g d, Laid (k g d) (basic g.code) [(g, n)] d.encode) :
    basic c ++ bs = encode x ++ rest := by
  have hn : n ≤ 8 := (hl (.plain .tos) (.one 0#7)).bytes_le _ List.mem_cons_self
  simp only [decodeGenDisp, dec_bind_eq_ok, Prod.exists] at h
  obtain ⟨c', ix, bs1, hi, m, bs2, hm, d, bs3, hd, h⟩ := h
  cases h
  obtain ⟨rfl, rfl, rfl⟩ := eq_of_takeGen hn hi hm
  rw [(hl _ _).encode_eq, eq_of_takeDisp hd]
  simp [operandBytes]

/-- The two operands that their index bytes and then their extensions build. -/
theorem eq_of_takeGens {h1 h2 : BitVec 5 × Option (Reg × Scale)} {m1 m2 : BaseMode} {bs1 bs2 bs3 : List Byte}
    (hn : ∀ o ∈ [(Gen.plain .tos, n1), (Gen.plain .tos, n2)], o.2 ≤ 8) (hi1 : takeIndex c1 bs = .ok (h1, bs1))
    (hi2 : takeIndex c2 bs1 = .ok (h2, bs2)) (hm1 : takeMode h1.1 n1 bs2 = .ok (m1, bs3))
    (hm2 : takeMode h2.1 n2 bs3 = .ok (m2, rest)) :
    (Gen.build m1 h1.2).code = c1 ∧ (Gen.build m2 h2.2).code = c2 ∧
      bs = operandBytes [(Gen.build m1 h1.2, n1), (Gen.build m2 h2.2, n2)] ++ rest := by
  have hn1 : n1 ≤ 8 := hn _ List.mem_cons_self
  have hn2 : n2 ≤ 8 := hn _ (List.mem_cons_of_mem _ List.mem_cons_self)
  obtain ⟨hc1, hb1, hb2⟩ := eq_of_takeGen hn1 hi1 hm1
  obtain ⟨hc2, hb3, hb4⟩ := eq_of_takeGen hn2 hi2 hm2
  refine ⟨hc1, hc2, ?_⟩
  rw [hb1, hb3, hb2, hb4]
  simp [operandBytes]

theorem sound_gens {k : Gen → Gen → Instr} {basic : BitVec 5 → BitVec 5 → List Byte}
    (h : decodeGens k c1 c2 n1 n2 bs = .ok (x, rest))
    (hl : ∀ g1 g2, Laid (k g1 g2) (basic g1.code g2.code) [(g1, n1), (g2, n2)] []) :
    basic c1 c2 ++ bs = encode x ++ rest := by
  simp only [decodeGens, dec_bind_eq_ok, Prod.exists] at h
  obtain ⟨c1', ix1, bs1, hi1, c2', ix2, bs2, hi2, m1, bs3, hm1, m2, bs4, hm2, h⟩ := h
  cases h
  obtain ⟨rfl, rfl, rfl⟩ := eq_of_takeGens (hl _ _).bytes_le hi1 hi2 hm1 hm2
  rw [(hl _ _).encode_eq, List.append_nil, List.append_assoc]

theorem sound_gensDisp {k : Gen → Gen → Disp → Instr} {basic : BitVec 5 → BitVec 5 → List Byte}
    (h : decodeGensDisp k c1 c2 n1 n2 bs = .ok (x, rest))
    (hl : ∀ g1 g2 d, Laid (k g1 g2 d) (basic g1.code g2.code) [(g1, n1), (g2, n2)] d.encode) :
    basic c1 c2 ++ bs = encode x ++ rest := by
  simp only [decodeGensDisp, dec_bind_eq_ok, Prod.exists] at h
  obtain ⟨c1', ix1, bs1, hi1, c2', ix2, bs2, hi2, m1, bs3, hm1, m2, bs4, hm2, d, bs5, hd, h⟩ := h
  cases h
  obtain ⟨rfl, rfl, rfl⟩ := eq_of_takeGens (hl _ _ (.one 0#7)).bytes_le hi1 hi2 hm1 hm2
  rw [(hl _ _ _).encode_eq, eq_of_takeDisp hd]
  simp only [List.append_assoc]

theorem sound_gensField {k : Gen → Gen → BitVec 3 → BitVec 5 → Instr} {basic : BitVec 5 → BitVec 5 → List Byte}
    (h : decodeGensField k c1 c2 n bs = .ok (x, rest))
    (hl : ∀ g1 g2 off size, Laid (k g1 g2 off size) (basic g1.code g2.code) [(g1, n), (g2, n)] [off ++ size]) :
    basic c1 c2 ++ bs = encode x ++ rest := by
  simp only [decodeGensField, dec_bind_eq_ok, nextByte_eq_ok, Prod.exists] at h
  obtain ⟨c1', ix1, bs1, hi1, c2', ix2, bs2, hi2, m1, bs3, hm1, m2, bs4, hm2, b, bs5, rfl, h⟩ := h
  cases h
  obtain ⟨rfl, rfl, rfl⟩ := eq_of_takeGens (hl _ _ 0#3 0#5).bytes_le hi1 hi2 hm1 hm2
  have hfield : b.extractLsb' 5 3 ++ b.extractLsb' 0 5 = b := append_eq_iff.2 ⟨rfl, rfl⟩
  rw [(hl _ _ _ _).encode_eq, hfield]
  simp

end

/-! ### From a layout to bytes -/

section
variable {i : Instr} {basic rest : List Byte} {g g1 g2 : Gen} {n n1 n2 : Nat} {d : Disp}

theorem complete_plain (hl : Laid i basic [] []) (hdec : ∀ bs, decode (basic ++ bs) = .ok (i, bs)) :
    decode (encode i ++ rest) = .ok (i, rest) := by
  rw [hl.encode_eq, List.append_assoc, hdec]
  simp [operandBytes]

theorem complete_disp {k : Disp → Instr} {pre : List Byte} (hd : d.wf = true) (hl : Laid i basic [] (pre ++ d.encode))
    (hdec : ∀ bs, decode (basic ++ (pre ++ bs)) = decodeDisp k bs) (hk : k d = i) :
    decode (encode i ++ rest) = .ok (i, rest) := by
  have hbytes : encode i ++ rest = basic ++ (pre ++ (d.encode ++ rest)) := by rw [hl.encode_eq]; simp [operandBytes]
  simp only [hbytes, hdec, decodeDisp, takeDisp_encode hd, dec_ok_bind, dec_pure, hk]

theorem complete_gen {k : Gen → Instr} (hi : i.wf = true) (hl : Laid i basic [(g, n)] [])
    (hdec : ∀ bs, decode (basic ++ bs) = decodeGen k g.code n bs) (hk : k g = i) :
    decode (encode i ++ rest) = .ok (i, rest) := by
  have h : g.wf n = true := hl.gen_wf hi _ List.mem_cons_self
  rw [hl.encode_eq, List.append_assoc, hdec]
  simp [decodeGen, operandBytes, takeIndex_indexBytes h, takeMode_gen h, hk]

theorem complete_genDisp {k : Gen → Disp → Instr} (hi : i.wf = true) (hd : d.wf = true)
    (hl : Laid i basic [(g, n)] d.encode) (hdec : ∀ bs, decode (basic ++ bs) = decodeGenDisp k g.code n bs)
    (hk : k g d = i) : decode (encode i ++ rest) = .ok (i, rest) := by
  have h : g.wf n = true := hl.gen_wf hi _ List.mem_cons_self
  rw [hl.encode_eq, List.append_assoc, hdec]
  simp [decodeGenDisp, operandBytes, takeIndex_indexBytes h, takeMode_gen h, takeDisp_encode hd, hk]

theorem complete_gens {k : Gen → Gen → Instr} (hi : i.wf = true) (hl : Laid i basic [(g1, n1), (g2, n2)] [])
    (hdec : ∀ bs, decode (basic ++ bs) = decodeGens k g1.code g2.code n1 n2 bs) (hk : k g1 g2 = i) :
    decode (encode i ++ rest) = .ok (i, rest) := by
  have h1 : g1.wf n1 = true := hl.gen_wf hi _ List.mem_cons_self
  have h2 : g2.wf n2 = true := hl.gen_wf hi _ (List.mem_cons_of_mem _ List.mem_cons_self)
  rw [hl.encode_eq, List.append_assoc, hdec]
  simp [decodeGens, operandBytes, takeIndex_indexBytes h1, takeIndex_indexBytes h2, takeMode_gen h1, takeMode_gen h2, hk]

theorem complete_gensDisp {k : Gen → Gen → Disp → Instr} (hi : i.wf = true) (hd : d.wf = true)
    (hl : Laid i basic [(g1, n1), (g2, n2)] d.encode)
    (hdec : ∀ bs, decode (basic ++ bs) = decodeGensDisp k g1.code g2.code n1 n2 bs) (hk : k g1 g2 d = i) :
    decode (encode i ++ rest) = .ok (i, rest) := by
  have h1 : g1.wf n1 = true := hl.gen_wf hi _ List.mem_cons_self
  have h2 : g2.wf n2 = true := hl.gen_wf hi _ (List.mem_cons_of_mem _ List.mem_cons_self)
  rw [hl.encode_eq, List.append_assoc, hdec]
  simp [decodeGensDisp, operandBytes, takeIndex_indexBytes h1, takeIndex_indexBytes h2, takeMode_gen h1, takeMode_gen h2,
    takeDisp_encode hd, hk]

theorem complete_gensField {k : Gen → Gen → BitVec 3 → BitVec 5 → Instr} {off : BitVec 3} {size : BitVec 5}
    (hi : i.wf = true) (hl : Laid i basic [(g1, n), (g2, n)] [off ++ size])
    (hdec : ∀ bs, decode (basic ++ bs) = decodeGensField k g1.code g2.code n bs) (hk : k g1 g2 off size = i) :
    decode (encode i ++ rest) = .ok (i, rest) := by
  have h1 : g1.wf n = true := hl.gen_wf hi _ List.mem_cons_self
  have h2 : g2.wf n = true := hl.gen_wf hi _ (List.mem_cons_of_mem _ List.mem_cons_self)
  obtain ⟨hoff, hsize⟩ := append_eq_iff.1 (Eq.refl (off ++ size))
  rw [hl.encode_eq, List.append_assoc, hdec]
  simp [decodeGensField, operandBytes, takeIndex_indexBytes h1, takeIndex_indexBytes h2, takeMode_gen h1, takeMode_gen h2,
    hoff, hsize, hk]

end

end Sys2Proof.Proofs
end

section
/-! PROOFS about the encoding, fourth part: the first byte decides the format. -/

namespace Sys2Proof.Proofs

/-! ### From basic bytes to a format -/

theorem bytes2_append (b0 b1 : Byte) (bs : List Byte) : bytes2 (b1 ++ b0) ++ bs = b0 :: b1 :: bs := by
  rw [bytes2, BitVec.extractLsb'_append_eq_right, BitVec.extractLsb'_append_eq_left]
  rfl

theorem bytes3_append (b0 b1 b2 : Byte) (bs : List Byte) : bytes3 (b2 ++ b1 ++ b0) ++ bs = b0 :: b1 :: b2 :: bs := by
  have h := append_eq_iff.1 (Eq.refl (b2 ++ b1 ++ b0))
  rw [extract_eq_append_iff] at h
  obtain ⟨⟨h2, h1⟩, h0⟩ := h
  rw [bytes3]
  simp only [Nat.reduceAdd] at h0 h1 h2
  rw [h0, h1, h2]
  rfl

theorem takeWord2_bytes2 (w : BitVec 16) (bs : List Byte) :
    takeWord2 (w.extractLsb' 0 8) (w.extractLsb' 8 8 :: bs) = .ok (w, bs) := by
  have hw : w.extractLsb' 8 8 ++ w.extractLsb' 0 8 = w := append_eq_iff.2 ⟨rfl, rfl⟩
  simp only [takeWord2, nextByte_cons, dec_ok_bind, dec_pure, hw]

theorem takeWord3_bytes3 (w : BitVec 24) (bs : List Byte) :
    takeWord3 (w.extractLsb' 0 8) (w.extractLsb' 8 8 :: w.extractLsb' 16 8 :: bs) = .ok (w, bs) := by
  have hw : w.extractLsb' 16 8 ++ w.extractLsb' 8 8 ++ w.extractLsb' 0 8 = w := by
    rw [append_eq_iff, extract_eq_append_iff]
    exact ⟨⟨rfl, rfl⟩, rfl⟩
  simp only [takeWord3, nextByte_cons, dec_ok_bind, dec_pure, hw]

theorem decode_fmt2 {w : BitVec 16} (bs : List Byte) (h : w.extractLsb' 0 4 ∈ [0xC#4, 0xD#4, 0xF#4]) :
    decode (bytes2 w ++ bs) = decodeFmt2 w bs := by
  have hlow : (w.extractLsb' 0 8).extractLsb' 0 4 = w.extractLsb' 0 4 := extract_extract w (by decide)
  simp only [decode, bytes2, List.cons_append, List.nil_append, nextByte_cons, dec_ok_bind, hlow, takeWord2_bytes2]
  simp only [List.mem_cons, List.not_mem_nil, or_false] at h
  rcases h with h | h | h <;> rw [h] <;> rfl

theorem decode_fmt4 {w : BitVec 16} (bs : List Byte)
    (h : w.extractLsb' 0 4 ∈ [0x0#4, 0x1#4, 0x3#4, 0x4#4, 0x5#4, 0x7#4, 0x8#4, 0x9#4, 0xB#4]) :
    decode (bytes2 w ++ bs) = decodeFmt4 w bs := by
  have hlow : (w.extractLsb' 0 8).extractLsb' 0 4 = w.extractLsb' 0 4 := extract_extract w (by decide)
  simp only [decode, bytes2, List.cons_append, List.nil_append, nextByte_cons, dec_ok_bind, hlow, takeWord2_bytes2]
  simp only [List.mem_cons, List.not_mem_nil, or_false] at h
  rcases h with h | h | h | h | h | h | h | h | h <;> rw [h] <;> rfl

section
variable {w : BitVec 24} (bs : List Byte)

theorem decode_fmt5 (h : w.extractLsb' 0 8 = 0x0E#8) : decode (bytes3 w ++ bs) = decodeFmt5 w bs := by
  have hw := h ▸ takeWord3_bytes3 w bs
  simp [decode, bytes3, h, hw]

theorem decode_fmt6 (h : w.extractLsb' 0 8 = 0x4E#8) : decode (bytes3 w ++ bs) = decodeFmt6 w bs := by
  have hw := h ▸ takeWord3_bytes3 w bs
  simp [decode, bytes3, h, hw]

theorem decode_fmt7 (h : w.extractLsb' 0 8 = 0xCE#8) : decode (bytes3 w ++ bs) = decodeFmt7 w bs := by
  have hw := h ▸ takeWord3_bytes3 w bs
  simp [decode, bytes3, h, hw]

theorem decode_fmt8 (h : w.extractLsb' 0 6 = 0b101110#6) : decode (bytes3 w ++ bs) = decodeFmt8 w bs := by
  have hw := takeWord3_bytes3 w bs
  have hfirst : w.extractLsb' 0 8 ∈ [0x2E#8, 0x6E#8, 0xAE#8, 0xEE#8] := by
    have hsplit : w.extractLsb' 0 8 = w.extractLsb' 6 2 ++ 0b101110#6 := extract_eq_append_iff.2 ⟨rfl, h⟩
    rw [hsplit]
    generalize w.extractLsb' 6 2 = v
    revert v
    decide
  simp only [List.mem_cons, List.not_mem_nil, or_false] at hfirst
  rcases hfirst with h | h | h | h <;> rw [h] at hw <;> simp [decode, bytes3, h, hw]

theorem decode_fmt9 (h : w.extractLsb' 0 8 = 0x3E#8) : decode (bytes3 w ++ bs) = decodeFmt9 w bs := by
  have hw := h ▸ takeWord3_bytes3 w bs
  simp [decode, bytes3, h, hw]

theorem decode_fmt11 (h : w.extractLsb' 0 8 ∈ [0xBE#8, 0xFE#8]) : decode (bytes3 w ++ bs) = decodeFmt11 w bs := by
  have hw := takeWord3_bytes3 w bs
  simp only [List.mem_cons, List.not_mem_nil, or_false] at h
  rcases h with h | h <;> rw [h] at hw <;> simp [decode, bytes3, h, hw]

end

end Sys2Proof.Proofs
end

section
/-! PROOFS about the encoding, fifth part: the two-byte formats 2, 3 and 4. -/

namespace Sys2Proof.Proofs

/-! ### Format 4 -/

@[simp] theorem fmt4Word_fields (gen1 gen2 : BitVec 5) (op : BitVec 4) (i : BitVec 2) :
    (fmt4Word gen1 gen2 op i).extractLsb' 11 5 = gen1 ∧ (fmt4Word gen1 gen2 op i).extractLsb' 6 5 = gen2 ∧
      (fmt4Word gen1 gen2 op i).extractLsb' 2 4 = op ∧ (fmt4Word gen1 gen2 op i).extractLsb' 0 2 = i :=
  fmt4Word_eq_iff.1 rfl

theorem fmt4Word_low (gen1 gen2 : BitVec 5) (op : BitVec 4) (i : BitVec 2) :
    (fmt4Word gen1 gen2 op i).extractLsb' 0 4 = op.extractLsb' 0 2 ++ i := by
  obtain ⟨-, -, hop, hi⟩ := fmt4Word_fields gen1 gen2 op i
  refine extract_eq_append_iff.2 ⟨?_, hi⟩
  rw [← hop, extract_extract _ (by decide)]
  rw [hop]

theorem complete_fmt4 {x : Instr} {k : Gen → Gen → Instr} {g1 g2 : Gen} {op : BitVec 4} {i : BitVec 2} {n1 n2 : Nat}
    {rest : List Byte} (hx : x.wf = true)
    (hl : Laid x (bytes2 (fmt4Word g1.code g2.code op i)) [(g1, n1), (g2, n2)] [])
    (hlow : op.extractLsb' 0 2 ++ i ∈ [0x0#4, 0x1#4, 0x3#4, 0x4#4, 0x5#4, 0x7#4, 0x8#4, 0x9#4, 0xB#4]) (hk : k g1 g2 = x)
    (hdec : ∀ c1 c2 bs, decodeFmt4 (fmt4Word c1 c2 op i) bs = decodeGens k c1 c2 n1 n2 bs) :
    decode (encode x ++ rest) = .ok (x, rest) :=
  complete_gens hx hl (fun bs => by rw [decode_fmt4 bs (by rwa [fmt4Word_low]), hdec]) hk

theorem sound_fmt4 {w : BitVec 16} {x : Instr} {bs rest : List Byte} (h : decodeFmt4 w bs = .ok (x, rest)) :
    bytes2 w ++ bs = encode x ++ rest := by
  obtain ⟨n, hn, h⟩ := dec_bind_eq_ok.1 h
  rw [ofBits_intLen_eq_ok] at hn
  have row : ∀ {o : Nat} {k : Gen → Gen → Instr}, (w.extractLsb' 2 4).toNat = o →
      decodeGens k (w.extractLsb' 11 5) (w.extractLsb' 6 5) n.bytes n.bytes bs = .ok (x, rest) →
      (∀ g1 g2, Laid (k g1 g2) (bytes2 (fmt4Word g1.code g2.code (BitVec.ofNat 4 o) n.bits))
        [(g1, n.bytes), (g2, n.bytes)] []) →
      bytes2 w ++ bs = encode x ++ rest := by
    intro o k hop h hl
    have hbytes := sound_gens (basic := fun c1 c2 => bytes2 (fmt4Word c1 c2 _ n.bits)) h hl
    rwa [fmt4Word_eq_iff.2 ⟨rfl, rfl, eq_ofNat_of_toNat hop, hn.symm⟩] at hbytes
  split at h
  case h_1 hop | h_2 hop | h_3 hop | h_4 hop | h_5 hop | h_6 hop | h_7 hop | h_9 hop | h_10 hop | h_11 hop | h_12 hop =>
    exact row hop h (fun _ _ => by cases n <;> exact ⟨rfl, rfl, rfl⟩)
  case h_8 hop =>
    split at h
    · next hd =>
      subst hd
      exact row hop h (fun _ _ => ⟨rfl, rfl, rfl⟩)
    · cases h
  case h_13 => cases h

/-! ### Formats 2 and 3 -/

@[simp] theorem fmt2Word_fields (gen : BitVec 5) (short : BitVec 4) (op : BitVec 3) (i : BitVec 2) :
    (fmt2Word gen short op i).extractLsb' 11 5 = gen ∧ (fmt2Word gen short op i).extractLsb' 7 4 = short ∧
      (fmt2Word gen short op i).extractLsb' 4 3 = op ∧ (fmt2Word gen short op i).extractLsb' 2 2 = 0b11#2 ∧
      (fmt2Word gen short op i).extractLsb' 0 2 = i := fmt2Word_eq_iff.1 rfl

/-- Format 3 is Format 2 with the opcode 111. -/
theorem fmt3Word_eq_fmt2Word (gen : BitVec 5) (op : BitVec 4) (i : BitVec 2) :
    fmt3Word gen op i = fmt2Word gen op 0b111#3 i := by
  obtain ⟨hgen, hop, hones, hi⟩ := fmt3Word_eq_iff.1 (Eq.refl (fmt3Word gen op i))
  obtain ⟨hhigh, hlow⟩ := extract_eq_append_iff.1 (show _ = 0b111#3 ++ 0b11#2 from hones)
  exact (fmt2Word_eq_iff.2 ⟨hgen, hop, hhigh, hlow, hi⟩).symm

theorem fmt2Word_low (gen : BitVec 5) (short : BitVec 4) (op : BitVec 3) (i : BitVec 2) :
    (fmt2Word gen short op i).extractLsb' 0 4 = 0b11#2 ++ i := by
  obtain ⟨-, -, -, hones, hi⟩ := fmt2Word_fields gen short op i
  exact extract_eq_append_iff.2 ⟨hones, hi⟩

section
variable {x : Instr} {g : Gen} {short : BitVec 4} {op : BitVec 3} {i : BitVec 2} {n : Nat} {rest : List Byte}

theorem complete_fmt2 {k : Gen → Instr} (hx : x.wf = true)
    (hl : Laid x (bytes2 (fmt2Word g.code short op i)) [(g, n)] [])
    (hlow : 0b11#2 ++ i ∈ [0xC#4, 0xD#4, 0xF#4]) (hk : k g = x)
    (hdec : ∀ c bs, decodeFmt2 (fmt2Word c short op i) bs = decodeGen k c n bs) :
    decode (encode x ++ rest) = .ok (x, rest) :=
  complete_gen hx hl (fun bs => by rw [decode_fmt2 bs (by rwa [fmt2Word_low]), hdec]) hk

theorem complete_fmt2_disp {k : Gen → Disp → Instr} {d : Disp} (hx : x.wf = true) (hd : d.wf = true)
    (hl : Laid x (bytes2 (fmt2Word g.code short op i)) [(g, n)] d.encode)
    (hlow : 0b11#2 ++ i ∈ [0xC#4, 0xD#4, 0xF#4]) (hk : k g d = x)
    (hdec : ∀ c bs, decodeFmt2 (fmt2Word c short op i) bs = decodeGenDisp k c n bs) :
    decode (encode x ++ rest) = .ok (x, rest) :=
  complete_genDisp hx hd hl (fun bs => by rw [decode_fmt2 bs (by rwa [fmt2Word_low]), hdec]) hk

theorem complete_fmt3 {k : Gen → Instr} {op : BitVec 4} (hx : x.wf = true)
    (hl : Laid x (bytes2 (fmt3Word g.code op i)) [(g, n)] [])
    (hlow : 0b11#2 ++ i ∈ [0xC#4, 0xD#4, 0xF#4]) (hk : k g = x)
    (hdec : ∀ c bs, decodeFmt2 (fmt2Word c op 0b111#3 i) bs = decodeGen k c n bs) :
    decode (encode x ++ rest) = .ok (x, rest) :=
  complete_fmt2 hx (by rwa [fmt3Word_eq_fmt2Word] at hl) hlow hk hdec

end

theorem sound_fmt3 {w : BitVec 16} {x : Instr} {bs rest : List Byte} (hones : w.extractLsb' 2 5 = 0b11111#5)
    (h : decodeFmt3 w bs = .ok (x, rest)) : bytes2 w ++ bs = encode x ++ rest := by
  obtain ⟨n, hn, h⟩ := dec_bind_eq_ok.1 h
  rw [ofBits_intLen_eq_ok] at hn
  have row : ∀ {o : Nat} {k : Gen → Instr}, (w.extractLsb' 7 4).toNat = o →
      decodeGen k (w.extractLsb' 11 5) n.bytes bs = .ok (x, rest) →
      (∀ g, Laid (k g) (bytes2 (fmt3Word g.code (BitVec.ofNat 4 o) n.bits)) [(g, n.bytes)] []) →
      bytes2 w ++ bs = encode x ++ rest := by
    intro o k hop h hl
    have hbytes := sound_gen (basic := fun c => bytes2 (fmt3Word c _ n.bits)) h hl
    rwa [fmt3Word_eq_iff.2 ⟨rfl, eq_ofNat_of_toNat hop, hones, hn.symm⟩] at hbytes
  split at h
  case h_1 hop | h_3 hop | h_6 hop =>
    split at h
    · next hd =>
      subst hd
      exact row hop h (fun _ => ⟨rfl, rfl, rfl⟩)
    · cases h
  case h_2 hop | h_4 hop | h_5 hop | h_7 hop => exact row hop h (fun _ => by cases n <;> exact ⟨rfl, rfl, rfl⟩)
  case h_8 => cases h

theorem sound_fmt2 {w : BitVec 16} {x : Instr} {bs rest : List Byte} (hones : w.extractLsb' 2 2 = 0b11#2)
    (h : decodeFmt2 w bs = .ok (x, rest)) : bytes2 w ++ bs = encode x ++ rest := by
  obtain ⟨n, hn, h⟩ := dec_bind_eq_ok.1 h
  rw [ofBits_intLen_eq_ok] at hn
  have hword : ∀ {o : Nat}, (w.extractLsb' 4 3).toNat = o →
      fmt2Word (w.extractLsb' 11 5) (w.extractLsb' 7 4) (BitVec.ofNat 3 o) n.bits = w := fun hop =>
    fmt2Word_eq_iff.2 ⟨rfl, rfl, eq_ofNat_of_toNat hop, hones, hn.symm⟩
  have row : ∀ {o : Nat} {k : Gen → Instr}, (w.extractLsb' 4 3).toNat = o →
      decodeGen k (w.extractLsb' 11 5) n.bytes bs = .ok (x, rest) →
      (∀ g, Laid (k g) (bytes2 (fmt2Word g.code (w.extractLsb' 7 4) (BitVec.ofNat 3 o) n.bits)) [(g, n.bytes)] []) →
      bytes2 w ++ bs = encode x ++ rest := fun {o k} hop h hl => by
    have hbytes := sound_gen (basic := fun c => bytes2 (fmt2Word c (w.extractLsb' 7 4) (BitVec.ofNat 3 o) n.bits)) h hl
    rwa [hword hop] at hbytes
  split at h
  case h_1 hop | h_2 hop | h_6 hop => exact row hop h (fun _ => by cases n <;> exact ⟨rfl, rfl, rfl⟩)
  case h_3 hop | h_7 hop =>
    obtain ⟨a, ha, h⟩ := dec_bind_eq_ok.1 h
    rw [ofCode_areg_eq_ok] at ha
    refine row hop h (fun _ => ?_)
    rw [← ha]
    cases n <;> exact ⟨rfl, rfl, rfl⟩
  case h_4 hop =>
    refine row hop h (fun _ => ?_)
    rw [← code_ofCode_cond (w.extractLsb' 7 4), ofCode_code_cond]
    cases n <;> exact ⟨rfl, rfl, rfl⟩
  case h_5 hop =>
    have hbytes := sound_genDisp
      (basic := fun c => bytes2 (fmt2Word c (w.extractLsb' 7 4) (BitVec.ofNat 3 4) n.bits)) h
      (fun _ _ => by cases n <;> exact ⟨rfl, rfl, rfl⟩)
    rwa [hword hop] at hbytes
  case h_8 h0 h1 h2 h3 h4 h5 h6 =>
    have hop : w.extractLsb' 4 3 = 0b111#3 := by
      revert h0 h1 h2 h3 h4 h5 h6
      generalize w.extractLsb' 4 3 = v
      revert v
      decide
    exact sound_fmt3 (extract_eq_append_iff.2 ⟨hop, hones⟩) h

end Sys2Proof.Proofs
end

section
/-! PROOFS about the encoding, sixth part: the three-byte formats with general operands, 6, 7, 8, 9, 11 and 12. -/

namespace Sys2Proof.Proofs

@[simp] theorem fmt6Word_fields (gen1 gen2 : BitVec 5) (op : BitVec 4) (i : BitVec 2) (first : BitVec 8) :
    (fmt6Word gen1 gen2 op i first).extractLsb' 19 5 = gen1 ∧ (fmt6Word gen1 gen2 op i first).extractLsb' 14 5 = gen2 ∧
      (fmt6Word gen1 gen2 op i first).extractLsb' 10 4 = op ∧ (fmt6Word gen1 gen2 op i first).extractLsb' 8 2 = i ∧
      (fmt6Word gen1 gen2 op i first).extractLsb' 0 8 = first := fmt6Word_eq_iff.1 rfl

/-- A word of Formats 6, 7, 11 and 12 from the values of its fields. -/
theorem fmt6Word_of_fields {w : BitVec 24} {o : Nat} {i : BitVec 2} {first : BitVec 8}
    (hop : (w.extractLsb' 10 4).toNat = o) (hi : i = w.extractLsb' 8 2) (hfirst : w.extractLsb' 0 8 = first) :
    fmt6Word (w.extractLsb' 19 5) (w.extractLsb' 14 5) (BitVec.ofNat 4 o) i first = w :=
  fmt6Word_eq_iff.2 ⟨rfl, rfl, eq_ofNat_of_toNat hop, hi.symm, hfirst⟩

section
variable {x : Instr} {g1 g2 : Gen} {op : BitVec 4} {i : BitVec 2} {n1 n2 : Nat} {rest : List Byte}

/-! ### Format 6 -/

theorem complete_fmt6 {k : Gen → Gen → Instr} (hx : x.wf = true)
    (hl : Laid x (bytes3 (fmt6Word g1.code g2.code op i 0x4E#8)) [(g1, n1), (g2, n2)] []) (hk : k g1 g2 = x)
    (hdec : ∀ c1 c2 bs, decodeFmt6 (fmt6Word c1 c2 op i 0x4E#8) bs = decodeGens k c1 c2 n1 n2 bs) :
    decode (encode x ++ rest) = .ok (x, rest) :=
  complete_gens hx hl (fun bs => by rw [decode_fmt6 bs (by simp only [fmt6Word_fields]), hdec]) hk

end

theorem sound_fmt6 {w : BitVec 24} {x : Instr} {bs rest : List Byte} (hfirst : w.extractLsb' 0 8 = 0x4E#8)
    (h : decodeFmt6 w bs = .ok (x, rest)) : bytes3 w ++ bs = encode x ++ rest := by
  obtain ⟨n, hn, h⟩ := dec_bind_eq_ok.1 h
  rw [ofBits_intLen_eq_ok] at hn
  have row : ∀ {o n1 : Nat} {k : Gen → Gen → Instr}, (w.extractLsb' 10 4).toNat = o →
      decodeGens k (w.extractLsb' 19 5) (w.extractLsb' 14 5) n1 n.bytes bs = .ok (x, rest) →
      (∀ g1 g2, Laid (k g1 g2) (bytes3 (fmt6Word g1.code g2.code (BitVec.ofNat 4 o) n.bits 0x4E#8))
        [(g1, n1), (g2, n.bytes)] []) → bytes3 w ++ bs = encode x ++ rest := by
    intro o n1 k hop h hl
    have hbytes := sound_gens (basic := fun c1 c2 => bytes3 (fmt6Word c1 c2 _ n.bits 0x4E#8)) h hl
    rwa [fmt6Word_of_fields hop hn hfirst] at hbytes
  split at h
  case h_15 => cases h
  all_goals
    next hop => exact row hop h (fun _ _ => ⟨rfl, rfl, rfl⟩)

/-! ### Format 7 -/

section
variable {x : Instr} {g1 g2 : Gen} {op : BitVec 4} {i : BitVec 2} {n n1 n2 : Nat} {rest : List Byte}

theorem complete_fmt7 {k : Gen → Gen → Instr} (hx : x.wf = true)
    (hl : Laid x (bytes3 (fmt6Word g1.code g2.code op i 0xCE#8)) [(g1, n1), (g2, n2)] []) (hk : k g1 g2 = x)
    (hdec : ∀ c1 c2 bs, decodeFmt7 (fmt6Word c1 c2 op i 0xCE#8) bs = decodeGens k c1 c2 n1 n2 bs) :
    decode (encode x ++ rest) = .ok (x, rest) :=
  complete_gens hx hl (fun bs => by rw [decode_fmt7 bs (by simp only [fmt6Word_fields]), hdec]) hk

theorem complete_fmt7_disp {k : Gen → Gen → Disp → Instr} {d : Disp} (hx : x.wf = true) (hd : d.wf = true)
    (hl : Laid x (bytes3 (fmt6Word g1.code g2.code op i 0xCE#8)) [(g1, n1), (g2, n2)] d.encode) (hk : k g1 g2 d = x)
    (hdec : ∀ c1 c2 bs, decodeFmt7 (fmt6Word c1 c2 op i 0xCE#8) bs = decodeGensDisp k c1 c2 n1 n2 bs) :
    decode (encode x ++ rest) = .ok (x, rest) :=
  complete_gensDisp hx hd hl (fun bs => by rw [decode_fmt7 bs (by simp only [fmt6Word_fields]), hdec]) hk

theorem complete_fmt7_field {k : Gen → Gen → BitVec 3 → BitVec 5 → Instr} {off : BitVec 3} {size : BitVec 5}
    (hx : x.wf = true) (hl : Laid x (bytes3 (fmt6Word g1.code g2.code op i 0xCE#8)) [(g1, n), (g2, n)] [off ++ size])
    (hk : k g1 g2 off size = x)
    (hdec : ∀ c1 c2 bs, decodeFmt7 (fmt6Word c1 c2 op i 0xCE#8) bs = decodeGensField k c1 c2 n bs) :
    decode (encode x ++ rest) = .ok (x, rest) :=
  complete_gensField hx hl (fun bs => by rw [decode_fmt7 bs (by simp only [fmt6Word_fields]), hdec]) hk

end

theorem sound_fmt7 {w : BitVec 24} {x : Instr} {bs rest : List Byte} (hfirst : w.extractLsb' 0 8 = 0xCE#8)
    (h : decodeFmt7 w bs = .ok (x, rest)) : bytes3 w ++ bs = encode x ++ rest := by
  obtain ⟨n, hn, h⟩ := dec_bind_eq_ok.1 h
  rw [ofBits_intLen_eq_ok] at hn
  have hword : ∀ {o : Nat}, (w.extractLsb' 10 4).toNat = o → fmt6Word (w.extractLsb' 19 5) (w.extractLsb' 14 5)
      (BitVec.ofNat 4 o) n.bits 0xCE#8 = w := fun hop => fmt6Word_of_fields hop hn hfirst
  have row : ∀ {o n1 n2 : Nat} {k : Gen → Gen → Instr}, (w.extractLsb' 10 4).toNat = o →
      decodeGens k (w.extractLsb' 19 5) (w.extractLsb' 14 5) n1 n2 bs = .ok (x, rest) →
      (∀ g1 g2, Laid (k g1 g2) (bytes3 (fmt6Word g1.code g2.code (BitVec.ofNat 4 o) n.bits 0xCE#8))
        [(g1, n1), (g2, n2)] []) → bytes3 w ++ bs = encode x ++ rest := by
    intro o n1 n2 k hop h hl
    have hbytes := sound_gens (basic := fun c1 c2 => bytes3 (fmt6Word c1 c2 _ n.bits 0xCE#8)) h hl
    rwa [hword hop] at hbytes
  split at h
  case h_1 hop | h_2 hop =>
    have hbytes := sound_gensDisp (basic := fun c1 c2 => bytes3 (fmt6Word c1 c2 _ n.bits 0xCE#8)) h
      (fun _ _ _ => ⟨rfl, rfl, rfl⟩)
    rwa [hword hop] at hbytes
  case h_3 hop | h_4 hop =>
    have hbytes := sound_gensField (basic := fun c1 c2 => bytes3 (fmt6Word c1 c2 _ n.bits 0xCE#8)) h
      (fun _ _ _ _ => ⟨rfl, rfl, rfl⟩)
    rwa [hword hop] at hbytes
  case h_5 hop | h_6 hop =>
    split at h
    · next hb =>
      subst hb
      exact row hop h (fun _ _ => ⟨rfl, rfl, rfl⟩)
    · cases h
  case h_7 hop | h_8 hop =>
    cases n with
    | b | w => exact row hop h (fun _ _ => ⟨rfl, rfl, rfl⟩)
    | d => cases h
  case h_9 hop | h_10 hop | h_11 hop | h_12 hop | h_13 hop | h_14 hop | h_15 hop =>
    exact row hop h (fun _ _ => ⟨rfl, rfl, rfl⟩)
  case h_16 => cases h

/-! ### Format 9 -/

@[simp] theorem fmt9Word_fields (gen1 gen2 : BitVec 5) (op : BitVec 3) (f : BitVec 1) (i : BitVec 2) :
    (fmt9Word gen1 gen2 op f i).extractLsb' 19 5 = gen1 ∧ (fmt9Word gen1 gen2 op f i).extractLsb' 14 5 = gen2 ∧
      (fmt9Word gen1 gen2 op f i).extractLsb' 11 3 = op ∧ (fmt9Word gen1 gen2 op f i).extractLsb' 10 1 = f ∧
      (fmt9Word gen1 gen2 op f i).extractLsb' 8 2 = i ∧ (fmt9Word gen1 gen2 op f i).extractLsb' 0 8 = 0x3E#8 :=
  fmt9Word_eq_iff.1 rfl

section
variable {x : Instr} {g g1 g2 : Gen} {op : BitVec 3} {f : BitVec 1} {i : BitVec 2} {n n1 n2 : Nat} {rest : List Byte}

theorem complete_fmt9 {k : Gen → Gen → Instr} (hx : x.wf = true)
    (hl : Laid x (bytes3 (fmt9Word g1.code g2.code op f i)) [(g1, n1), (g2, n2)] []) (hk : k g1 g2 = x)
    (hdec : ∀ c1 c2 bs, decodeFmt9 (fmt9Word c1 c2 op f i) bs = decodeGens k c1 c2 n1 n2 bs) :
    decode (encode x ++ rest) = .ok (x, rest) :=
  complete_gens hx hl (fun bs => by rw [decode_fmt9 bs (by simp only [fmt9Word_fields]), hdec]) hk

/-- LFSR and SFSR have one operand; the other field of a general operand is spare. -/
theorem complete_fmt9_one {k : Gen → Instr} {c1 c2 : BitVec 5} (hx : x.wf = true)
    (hl : Laid x (bytes3 (fmt9Word c1 c2 op f i)) [(g, n)] []) (hk : k g = x)
    (hdec : ∀ bs, decodeFmt9 (fmt9Word c1 c2 op f i) bs = decodeGen k g.code n bs) :
    decode (encode x ++ rest) = .ok (x, rest) :=
  complete_gen hx hl (fun bs => by rw [decode_fmt9 bs (by simp only [fmt9Word_fields]), hdec]) hk

end

theorem sound_fmt9 {w : BitVec 24} {x : Instr} {bs rest : List Byte} (hfirst : w.extractLsb' 0 8 = 0x3E#8)
    (h : decodeFmt9 w bs = .ok (x, rest)) : bytes3 w ++ bs = encode x ++ rest := by
  obtain ⟨n, hn, h⟩ := dec_bind_eq_ok.1 h
  rw [ofBits_intLen_eq_ok] at hn
  dsimp only at h
  have hf := bit_ofBit (w.extractLsb' 10 1)
  generalize FLen.ofBit (w.extractLsb' 10 1) = f at h hf
  have hword : ∀ {op : BitVec 3}, w.extractLsb' 11 3 = op →
      fmt9Word (w.extractLsb' 19 5) (w.extractLsb' 14 5) op f.bit n.bits = w := fun hop =>
    fmt9Word_eq_iff.2 ⟨rfl, rfl, hop, hf.symm, hn.symm, hfirst⟩
  have row : ∀ {op : BitVec 3} {n1 n2 : Nat} {k : Gen → Gen → Instr}, w.extractLsb' 11 3 = op →
      decodeGens k (w.extractLsb' 19 5) (w.extractLsb' 14 5) n1 n2 bs = .ok (x, rest) →
      (∀ g1 g2, Laid (k g1 g2) (bytes3 (fmt9Word g1.code g2.code op f.bit n.bits)) [(g1, n1), (g2, n2)] []) →
      bytes3 w ++ bs = encode x ++ rest := by
    intro op n1 n2 k hop h hl
    have hbytes := sound_gens (basic := fun c1 c2 => bytes3 (fmt9Word c1 c2 op f.bit n.bits)) h hl
    rwa [hword hop] at hbytes
  split at h
  case h_2 hop =>
    have hbytes := sound_gen (basic := fun c => bytes3 (fmt9Word c (w.extractLsb' 14 5) 0b001#3 f.bit n.bits)) h
      (fun _ => ⟨rfl, rfl, rfl⟩)
    rwa [hword (eq_ofNat_of_toNat hop)] at hbytes
  case h_7 hop =>
    have hbytes := sound_gen (basic := fun c => bytes3 (fmt9Word (w.extractLsb' 19 5) c 0b110#3 f.bit n.bits)) h
      (fun _ => ⟨rfl, rfl, rfl⟩)
    rwa [hword (eq_ofNat_of_toNat hop)] at hbytes
  case h_1 hop | h_3 hop | h_4 hop | h_5 hop | h_6 hop =>
    exact row (eq_ofNat_of_toNat hop) h (fun _ _ => ⟨rfl, rfl, rfl⟩)
  case h_8 h0 h1 h2 h3 h4 h5 h6 =>
    have hop : w.extractLsb' 11 3 = 0b111#3 := by
      revert h0 h1 h2 h3 h4 h5 h6
      generalize w.extractLsb' 11 3 = v
      revert v
      decide
    exact row hop h (fun _ _ => ⟨rfl, rfl, rfl⟩)

/-! ### Formats 11 and 12 -/

/-- The `f` bit below a bit that is 0. -/
theorem fmt11_flen {w : BitVec 24} (h9 : ¬w.getLsbD 9 = true) :
    0#1 ++ (FLen.ofBit (w.extractLsb' 8 1)).bit = w.extractLsb' 8 2 := by
  have htop : w.extractLsb' 9 1 = 0#1 := by
    apply BitVec.eq_of_getLsbD_eq
    intro j hj
    obtain rfl : j = 0 := by omega
    simpa using h9
  rw [bit_ofBit]
  exact (extract_eq_append_iff.2 ⟨htop, rfl⟩).symm

theorem complete_fmt11 {x : Instr} {k : Gen → Gen → Instr} {g1 g2 : Gen} {op : BitVec 4} {f : FLen} {first : BitVec 8}
    {rest : List Byte} (hx : x.wf = true) (hfirst : first ∈ [0xBE#8, 0xFE#8])
    (hl : Laid x (bytes3 (fmt6Word g1.code g2.code op (0#1 ++ f.bit) first)) [(g1, f.bytes), (g2, f.bytes)] [])
    (hk : k g1 g2 = x)
    (hdec : ∀ c1 c2 bs, decodeFmt11 (fmt6Word c1 c2 op (0#1 ++ f.bit) first) bs = decodeGens k c1 c2 f.bytes f.bytes bs) :
    decode (encode x ++ rest) = .ok (x, rest) :=
  complete_gens hx hl (fun bs => by rw [decode_fmt11 bs (by simpa only [fmt6Word_fields] using hfirst), hdec]) hk

theorem sound_fmt11 {w : BitVec 24} {x : Instr} {bs rest : List Byte} (hfirst : w.extractLsb' 0 8 ∈ [0xBE#8, 0xFE#8])
    (h : decodeFmt11 w bs = .ok (x, rest)) : bytes3 w ++ bs = encode x ++ rest := by
  simp only [decodeFmt11] at h
  split at h
  · cases h
  next h9 =>
  have hf := fmt11_flen h9
  generalize FLen.ofBit (w.extractLsb' 8 1) = f at h hf
  have row : ∀ {o : Nat} {first : BitVec 8} {k : Gen → Gen → Instr}, w.extractLsb' 0 8 = first →
      (w.extractLsb' 10 4).toNat = o →
      decodeGens k (w.extractLsb' 19 5) (w.extractLsb' 14 5) f.bytes f.bytes bs = .ok (x, rest) →
      (∀ g1 g2, Laid (k g1 g2) (bytes3 (fmt6Word g1.code g2.code (BitVec.ofNat 4 o) (0#1 ++ f.bit) first))
        [(g1, f.bytes), (g2, f.bytes)] []) → bytes3 w ++ bs = encode x ++ rest := by
    intro o first k hfirst hop h hl
    have hbytes := sound_gens (basic := fun c1 c2 => bytes3 (fmt6Word c1 c2 _ (0#1 ++ f.bit) first)) h hl
    rwa [fmt6Word_of_fields hop hf hfirst] at hbytes
  have hbit6 : w.getLsbD 6 = (w.extractLsb' 0 8).getLsbD 6 := by simp
  simp only [List.mem_cons, List.not_mem_nil, or_false] at hfirst
  rcases hfirst with hfirst | hfirst
  · rw [hbit6, hfirst, if_pos (by decide)] at h
    split at h
    case h_9 => cases h
    all_goals
      next hop => exact row hfirst hop h (fun _ _ => ⟨rfl, rfl, rfl⟩)
  · rw [hbit6, hfirst, if_neg (by decide)] at h
    split at h
    case h_5 => cases h
    all_goals
      next hop => exact row hfirst hop h (fun _ _ => ⟨rfl, rfl, rfl⟩)

/-! ### Format 8 -/

@[simp] theorem fmt8Word_fields (gen1 gen2 : BitVec 5) (reg : BitVec 3) (opHi : BitVec 1) (i opLo : BitVec 2) :
    (fmt8Word gen1 gen2 reg opHi i opLo).extractLsb' 19 5 = gen1 ∧
      (fmt8Word gen1 gen2 reg opHi i opLo).extractLsb' 14 5 = gen2 ∧
      (fmt8Word gen1 gen2 reg opHi i opLo).extractLsb' 11 3 = reg ∧
      (fmt8Word gen1 gen2 reg opHi i opLo).extractLsb' 10 1 = opHi ∧
      (fmt8Word gen1 gen2 reg opHi i opLo).extractLsb' 8 2 = i ∧
      (fmt8Word gen1 gen2 reg opHi i opLo).extractLsb' 6 2 = opLo ∧
      (fmt8Word gen1 gen2 reg opHi i opLo).extractLsb' 0 6 = 0b101110#6 := fmt8Word_eq_iff.1 rfl

section
variable {x : Instr} {g1 g2 : Gen} {reg : BitVec 3} {opHi : BitVec 1} {i opLo : BitVec 2} {n1 n2 : Nat} {rest : List Byte}

theorem complete_fmt8 {k : Gen → Gen → Instr} (hx : x.wf = true)
    (hl : Laid x (bytes3 (fmt8Word g1.code g2.code reg opHi i opLo)) [(g1, n1), (g2, n2)] []) (hk : k g1 g2 = x)
    (hdec : ∀ c1 c2 bs, decodeFmt8 (fmt8Word c1 c2 reg opHi i opLo) bs = decodeGens k c1 c2 n1 n2 bs) :
    decode (encode x ++ rest) = .ok (x, rest) :=
  complete_gens hx hl (fun bs => by rw [decode_fmt8 bs (by simp only [fmt8Word_fields]), hdec]) hk

theorem complete_fmt8_disp {k : Gen → Gen → Disp → Instr} {d : Disp} (hx : x.wf = true) (hd : d.wf = true)
    (hl : Laid x (bytes3 (fmt8Word g1.code g2.code reg opHi i opLo)) [(g1, n1), (g2, n2)] d.encode) (hk : k g1 g2 d = x)
    (hdec : ∀ c1 c2 bs, decodeFmt8 (fmt8Word c1 c2 reg opHi i opLo) bs = decodeGensDisp k c1 c2 n1 n2 bs) :
    decode (encode x ++ rest) = .ok (x, rest) :=
  complete_gensDisp hx hd hl (fun bs => by rw [decode_fmt8 bs (by simp only [fmt8Word_fields]), hdec]) hk

end

/-- The bytes of a removed instruction, as a word of three bytes. -/
theorem bytes3_word (word : Word16) (b : Byte) : bytes3 (word ++ b) = b :: bytes2 word := by
  have hlow : (word ++ b).extractLsb' 0 8 = b := BitVec.extractLsb'_append_eq_right
  have hmid : (word ++ b).extractLsb' 8 8 = word.extractLsb' 0 8 := BitVec.extractLsb'_append_eq_of_le (by decide)
  have hhigh : (word ++ b).extractLsb' 16 8 = word.extractLsb' 8 8 := BitVec.extractLsb'_append_eq_of_le (by decide)
  rw [bytes3, bytes2, hlow, hmid, hhigh]

theorem sound_fmt8 {w : BitVec 24} {x : Instr} {bs rest : List Byte} (hfirst : w.extractLsb' 0 6 = 0b101110#6)
    (h : decodeFmt8 w bs = .ok (x, rest)) : bytes3 w ++ bs = encode x ++ rest := by
  simp only [decodeFmt8] at h
  have hr := code_ofCode_reg (w.extractLsb' 11 3)
  have hword : ∀ {o : Nat} {opHi : BitVec 1} {opLo : BitVec 2} {n : IntLen},
      (w.extractLsb' 10 1 ++ w.extractLsb' 6 2).toNat = o → opHi ++ opLo = BitVec.ofNat 3 o →
      IntLen.ofBits (w.extractLsb' 8 2) = .ok n → fmt8Word (w.extractLsb' 19 5) (w.extractLsb' 14 5)
        (Reg.ofCode (w.extractLsb' 11 3)).code opHi n.bits opLo = w := by
    intro o opHi opLo n hop ho hn
    rw [ofBits_intLen_eq_ok] at hn
    obtain ⟨hhi, hlo⟩ := append_eq_iff.1 (ho.trans (eq_ofNat_of_toNat hop).symm)
    rw [BitVec.extractLsb'_append_eq_left] at hhi
    rw [BitVec.extractLsb'_append_eq_right] at hlo
    exact fmt8Word_eq_iff.2 ⟨rfl, rfl, hr.symm, hhi, hn.symm, hlo, hfirst⟩
  have rowDisp : ∀ {o : Nat} {opHi : BitVec 1} {opLo : BitVec 2} {n : IntLen} {k : Gen → Gen → Disp → Instr},
      (w.extractLsb' 10 1 ++ w.extractLsb' 6 2).toNat = o → opHi ++ opLo = BitVec.ofNat 3 o →
      IntLen.ofBits (w.extractLsb' 8 2) = .ok n →
      decodeGensDisp k (w.extractLsb' 19 5) (w.extractLsb' 14 5) n.bytes n.bytes bs = .ok (x, rest) →
      (∀ g1 g2 d, Laid (k g1 g2 d) (bytes3 (fmt8Word g1.code g2.code (Reg.ofCode (w.extractLsb' 11 3)).code opHi n.bits opLo))
        [(g1, n.bytes), (g2, n.bytes)] d.encode) → bytes3 w ++ bs = encode x ++ rest := by
    intro o opHi opLo n k hop ho hn h hl
    have hbytes := sound_gensDisp (basic := fun c1 c2 => bytes3 (fmt8Word c1 c2 _ opHi n.bits opLo)) h hl
    rwa [hword hop ho hn] at hbytes
  have row : ∀ {o n1 n2 : Nat} {opHi : BitVec 1} {opLo : BitVec 2} {n : IntLen} {k : Gen → Gen → Instr},
      (w.extractLsb' 10 1 ++ w.extractLsb' 6 2).toNat = o → opHi ++ opLo = BitVec.ofNat 3 o →
      IntLen.ofBits (w.extractLsb' 8 2) = .ok n →
      decodeGens k (w.extractLsb' 19 5) (w.extractLsb' 14 5) n1 n2 bs = .ok (x, rest) →
      (∀ g1 g2, Laid (k g1 g2) (bytes3 (fmt8Word g1.code g2.code (Reg.ofCode (w.extractLsb' 11 3)).code opHi n.bits opLo))
        [(g1, n1), (g2, n2)] []) → bytes3 w ++ bs = encode x ++ rest := by
    intro o n1 n2 opHi opLo n k hop ho hn h hl
    have hbytes := sound_gens (basic := fun c1 c2 => bytes3 (fmt8Word c1 c2 _ opHi n.bits opLo)) h hl
    rwa [hword hop ho hn] at hbytes
  split at h
  case h_1 hop | h_3 hop =>
    obtain ⟨n, hn, h⟩ := dec_bind_eq_ok.1 h
    exact rowDisp hop (by rfl) hn h (fun _ _ _ => ⟨rfl, rfl, rfl⟩)
  case h_2 hop | h_4 hop | h_5 hop | h_6 hop =>
    obtain ⟨n, hn, h⟩ := dec_bind_eq_ok.1 h
    exact row hop (by rfl) hn h (fun _ _ => ⟨rfl, rfl, rfl⟩)
  case h_7 hop =>
    obtain ⟨-, -, h⟩ := dec_bind_eq_ok.1 h
    obtain ⟨-, hlo⟩ := append_eq_iff.1 (show 1#1 ++ 0b10#2 = _ from (eq_ofNat_of_toNat hop).symm)
    rw [BitVec.extractLsb'_append_eq_right] at hlo
    have hbyte : w.extractLsb' 0 8 = 0xAE#8 := extract_eq_append_iff.2 ⟨hlo, hfirst⟩
    rw [← (append_eq_iff.2 ⟨rfl, hbyte⟩ : w.extractLsb' 8 16 ++ 0xAE#8 = w), bytes3_word]
    split at h
    · cases h
      exact sound_plain ⟨rfl, rfl, rfl⟩
    · split at h
      · cases h
        exact sound_plain ⟨rfl, rfl, rfl⟩
      · cases h
  case h_8 => cases h

end Sys2Proof.Proofs
end

section
/-! PROOFS about the encoding, seventh part: Format 5, with the options of its `short` field (R84, R85, R91). -/

namespace Sys2Proof.Proofs

@[simp] theorem fmt5Word_fields (short op : BitVec 4) (i : BitVec 2) :
    (fmt5Word short op i).extractLsb' 19 5 = 0b00000#5 ∧ (fmt5Word short op i).extractLsb' 15 4 = short ∧
      (fmt5Word short op i).extractLsb' 14 1 = 0b0#1 ∧ (fmt5Word short op i).extractLsb' 10 4 = op ∧
      (fmt5Word short op i).extractLsb' 8 2 = i ∧ (fmt5Word short op i).extractLsb' 0 8 = 0x0E#8 := fmt5Word_eq_iff.1 rfl

/-- A bit of the `short` field. -/
theorem fmt5Word_short_bit (short op : BitVec 4) (i : BitVec 2) {j : Nat} (hj : j < 4) :
    (fmt5Word short op i).getLsbD (15 + j) = short.getLsbD j := by
  obtain ⟨-, hshort, -⟩ := fmt5Word_fields short op i
  rw [← hshort, BitVec.getLsbD_extractLsb', hshort, decide_eq_true hj, Bool.true_and]

theorem getLsbD_eq_false_iff {k : Nat} {w : BitVec k} {j : Nat} : w.getLsbD j = false ↔ w.extractLsb' j 1 = 0#1 := by
  have h : w.extractLsb' j 1 = BitVec.ofBool (w.getLsbD j) := by
    apply BitVec.eq_of_getLsbD_eq
    intro m hm
    obtain rfl : m = 0 := by omega
    simp
  rw [h]
  cases w.getLsbD j <;> decide

/-- The options of a graphics instruction are bits of the `short` field. -/
theorem fmt5Word_or_short (short op : BitVec 4) (i : BitVec 2) :
    fmt5Word 0#4 op i ||| short.setWidth 24 <<< 15 = fmt5Word short op i := by
  obtain ⟨h19, h15, h14, h10, h8, h0⟩ := fmt5Word_fields 0#4 op i
  refine (fmt5Word_eq_iff.2 ?_).symm
  simp only [BitVec.extractLsb'_or, h19, h15, h14, h10, h8, h0]
  have hparts : ∀ s : BitVec 4, (s.setWidth 24 <<< 15).extractLsb' 19 5 = 0#5 ∧ (s.setWidth 24 <<< 15).extractLsb' 15 4 = s ∧
      (s.setWidth 24 <<< 15).extractLsb' 14 1 = 0#1 ∧ (s.setWidth 24 <<< 15).extractLsb' 10 4 = 0#4 ∧
      (s.setWidth 24 <<< 15).extractLsb' 8 2 = 0#2 ∧ (s.setWidth 24 <<< 15).extractLsb' 0 8 = 0#8 := by decide
  simp [hparts]

/-- Masking out all but the `short` field. -/
theorem fmt5Word_and_short (short op : BitVec 4) (i : BitVec 2) :
    fmt5Word short op i &&& 0x078000#24 = short.setWidth 24 <<< 15 := by
  have hrest : ∀ (o : BitVec 4) (c : BitVec 2), fmt5Word 0#4 o c &&& 0x078000#24 = 0#24 := by decide
  have hshort : ∀ s : BitVec 4, s.setWidth 24 <<< 15 &&& 0x078000#24 = s.setWidth 24 <<< 15 := by decide
  rw [← fmt5Word_or_short, BitVec.and_or_distrib_right, hrest, hshort, BitVec.zero_or]

theorem strayBits_fmt5Word (short op : BitVec 4) (i : BitVec 2) (allowed : List Nat) :
    strayBits (fmt5Word short op i) allowed =
      (short.setWidth 24 <<< 15 &&& ~~~(allowed.foldl (fun m b => m ||| optBit true b) 0#24) != 0#24) := by
  rw [strayBits, fmt5Word_and_short]

/-! ### Format 5 from bytes to instructions -/

section
variable {short op : BitVec 4} {i want : BitVec 2} {x y : Instr} {bs rest : List Byte}

theorem eq_of_decodePlain5 (h : decodePlain5 (fmt5Word short op i) want y bs = .ok (x, rest)) :
    x = y ∧ rest = bs ∧ fmt5Word short op i = fmt5Word 0#4 op want := by
  have hzero : ∀ s : BitVec 4, ¬(s.setWidth 24 <<< 15 &&& ~~~0#24 != 0#24) = true → s = 0#4 := by decide
  simp only [decodePlain5, fmt5Word_fields, strayBits_fmt5Word, List.foldl_nil] at h
  split at h
  · cases h
  next hi =>
  split at h
  · cases h
  next hs =>
  cases h
  rw [hzero short hs, not_not.1 hi]
  exact ⟨rfl, rfl, rfl⟩

theorem eq_of_decodeBb {b : Bool} {k : Bool → Bool → Instr}
    (h : decodeBb (fmt5Word short op i) want b k bs = .ok (x, rest)) :
    ∃ da inv, x = k da inv ∧ rest = bs ∧ fmt5Word short op i = fmt5Word 0#4 op want ||| bbOpts da inv b := by
  have hopts : ∀ (s : BitVec 4) (b : Bool),
      ¬((s.setWidth 24 <<< 15 &&&
        ~~~([Config.bbDBit, Config.bbSBit, Config.bbXBit].foldl (fun m b => m ||| optBit true b) 0#24) != 0#24) || s.getLsbD 0 != b) = true →
      s.setWidth 24 <<< 15 = bbOpts (s.getLsbD 2) (s.getLsbD 1) b := by decide
  have hd := fmt5Word_short_bit short op i (j := 2) (by decide)
  have hsrc := fmt5Word_short_bit short op i (j := 1) (by decide)
  have hx := fmt5Word_short_bit short op i (j := 0) (by decide)
  simp only [decodeBb, fmt5Word_fields, strayBits_fmt5Word] at h
  split at h
  · cases h
  next hi =>
  split at h
  · cases h
  next hs =>
  cases h
  have hshort := hopts short b (by rw [← hx]; exact hs)
  refine ⟨short.getLsbD 2, short.getLsbD 1, by rw [← hd, ← hsrc]; rfl, rfl, ?_⟩
  rw [← not_not.1 hi, ← hshort, fmt5Word_or_short]

/-- The options and the length of a string instruction are read back. -/
theorem decodeString_fmt5Word (stop : StopRule) (back translate : Bool) (op : BitVec 4) (len : IntLen)
    (k : IntLen → Bool → StopRule → Instr) (kt : StringStep → StopRule → Instr) (bs : List Byte) :
    decodeString (fmt5Word (stringOpts stop back translate) op len.bits) k kt bs =
      .ok (if translate then kt ⟨len, back⟩ stop else k len back stop, bs) := by
  obtain ⟨-, hshort, -, -, hi, -⟩ := fmt5Word_fields (stringOpts stop back translate) op len.bits
  have hu : (fmt5Word (stringOpts stop back translate) op len.bits).extractLsb' 17 2 = stop.bits := by
    rw [← extract_extract (t := 15) (s := 2) (m := 4) _ (by decide), hshort]
    cases stop <;> cases back <;> cases translate <;> rfl
  have ht : (fmt5Word (stringOpts stop back translate) op len.bits).getLsbD (15 + 0) = translate := by
    rw [fmt5Word_short_bit _ _ _ (by decide)]
    cases stop <;> cases back <;> cases translate <;> rfl
  have hb : (fmt5Word (stringOpts stop back translate) op len.bits).getLsbD (15 + 1) = back := by
    rw [fmt5Word_short_bit _ _ _ (by decide)]
    cases stop <;> cases back <;> cases translate <;> rfl
  simp only [Nat.add_zero, Nat.reduceAdd] at ht hb
  simp only [decodeString, hu, hi, ht, hb, ofBits_bits_stopRule, ofBits_bits_intLen, dec_ok_bind, dec_pure]

theorem eq_of_decodeString {k : IntLen → Bool → StopRule → Instr} {kt : StringStep → StopRule → Instr}
    (h : decodeString (fmt5Word short op i) k kt bs = .ok (x, rest)) :
    rest = bs ∧ ∃ (n : IntLen) (back : Bool) (stop : StopRule),
      (x = k n back stop ∧ fmt5Word short op i = fmt5Word (stringOpts stop back false) op n.bits) ∨
      (x = kt ⟨n, back⟩ stop ∧ fmt5Word short op i = fmt5Word (stringOpts stop back true) op n.bits) := by
  have ht := fmt5Word_short_bit short op i (j := 0) (by decide)
  have hb := fmt5Word_short_bit short op i (j := 1) (by decide)
  have hu : (fmt5Word short op i).extractLsb' 17 2 = short.extractLsb' 2 2 := by
    obtain ⟨-, hshort, -⟩ := fmt5Word_fields short op i
    rw [← hshort, extract_extract _ (by decide), hshort]
  have hparts : ∀ s : BitVec 4, s = s.extractLsb' 2 2 ++ BitVec.ofBool (s.getLsbD 1) ++ BitVec.ofBool (s.getLsbD 0) := by
    decide
  obtain ⟨stop, hstop, h⟩ := dec_bind_eq_ok.1 h
  obtain ⟨n, hn, h⟩ := dec_bind_eq_ok.1 h
  rw [ofBits_stopRule_eq_ok, hu] at hstop
  rw [ofBits_intLen_eq_ok] at hn
  simp only [fmt5Word_fields] at hn
  have hshort := hparts short
  rw [← hstop, ← ht, ← hb] at hshort
  simp only [Nat.add_zero, Nat.reduceAdd] at hshort
  cases h
  refine ⟨rfl, n, (fmt5Word short op i).getLsbD 16, stop, ?_⟩
  rw [hn]
  cases hT : (fmt5Word short op i).getLsbD 15 with
  | false =>
    rw [hT] at hshort
    exact .inl ⟨rfl, congrArg (fmt5Word · op i) hshort⟩
  | true =>
    rw [hT] at hshort
    exact .inr ⟨rfl, congrArg (fmt5Word · op i) hshort⟩

theorem eq_of_decodeMovmp (h : decodeMovmp (fmt5Word short Config.opMovmp i) bs = .ok (x, rest)) :
    bytes3 (fmt5Word short Config.opMovmp i) ++ bs = encode x ++ rest := by
  simp only [decodeMovmp] at h
  split_ifs at h <;> obtain ⟨rfl, rfl, hw⟩ := eq_of_decodePlain5 h <;> rw [hw] <;> exact sound_plain ⟨rfl, rfl, rfl⟩

theorem eq_of_decodeTbits (h : (if i ≠ Config.iTbits then (.error .fmt5Unassigned : Dec (Instr × List Byte))
      else if strayBits (fmt5Word short op i) [Config.tbitsSBit] then .error .fmt5StrayBits
      else .ok (.tbits ((fmt5Word short op i).getLsbD Config.tbitsSBit), bs)) = .ok (x, rest)) :
    ∃ ones, x = .tbits ones ∧ rest = bs ∧
      fmt5Word short op i = fmt5Word 0#4 op Config.iTbits ||| optBit ones Config.tbitsSBit := by
  have hopts : ∀ s : BitVec 4,
      ¬(s.setWidth 24 <<< 15 &&& ~~~([Config.tbitsSBit].foldl (fun m b => m ||| optBit true b) 0#24) != 0#24) = true →
      s.setWidth 24 <<< 15 = optBit (s.getLsbD 1) Config.tbitsSBit := by decide
  have hones := fmt5Word_short_bit short op i (j := 1) (by decide)
  simp only [strayBits_fmt5Word] at h
  split at h
  · cases h
  next hi =>
  split at h
  · cases h
  next hs =>
  cases h
  refine ⟨short.getLsbD 1, by rw [← hones]; rfl, rfl, ?_⟩
  rw [← not_not.1 hi, ← hopts short hs, fmt5Word_or_short]

end

theorem sound_fmt5 {w : BitVec 24} {x : Instr} {bs rest : List Byte} (hfirst : w.extractLsb' 0 8 = 0x0E#8)
    (h : decodeFmt5 w bs = .ok (x, rest)) : bytes3 w ++ bs = encode x ++ rest := by
  rw [decodeFmt5] at h
  obtain ⟨-, herr⟩ | ⟨hfixed, h⟩ := ite_eq_iff.1 h
  · cases herr
  obtain ⟨htop, h14⟩ := not_or.1 hfixed
  have hbit : w.extractLsb' 14 1 = 0b0#1 := getLsbD_eq_false_iff.1 (Bool.eq_false_iff.2 h14)
  obtain ⟨short, op, i, rfl⟩ : ∃ short op i, w = fmt5Word short op i :=
    ⟨_, _, _, fmt5Word_eq_iff.2 ⟨not_not.1 htop, rfl, hbit, rfl, rfl, hfirst⟩ |>.symm⟩
  simp only [fmt5Word_fields] at h
  have plain : ∀ {want : BitVec 2} {y : Instr}, decodePlain5 (fmt5Word short op i) want y bs = .ok (x, rest) →
      Laid y (bytes3 (fmt5Word 0#4 op want)) [] [] → bytes3 (fmt5Word short op i) ++ bs = encode x ++ rest := by
    intro want y h hl
    obtain ⟨rfl, rfl, hw⟩ := eq_of_decodePlain5 h
    rw [hw]
    exact sound_plain hl
  have bb : ∀ {want : BitVec 2} {b : Bool} {k : Bool → Bool → Instr},
      decodeBb (fmt5Word short op i) want b k bs = .ok (x, rest) →
      (∀ da inv, Laid (k da inv) (bytes3 (fmt5Word 0#4 op want ||| bbOpts da inv b)) [] []) →
      bytes3 (fmt5Word short op i) ++ bs = encode x ++ rest := by
    intro want b k h hl
    obtain ⟨da, inv, rfl, rfl, hw⟩ := eq_of_decodeBb h
    rw [hw]
    exact sound_plain (hl da inv)
  have string : ∀ {k : IntLen → Bool → StopRule → Instr} {kt : StringStep → StopRule → Instr},
      decodeString (fmt5Word short op i) k kt bs = .ok (x, rest) →
      (∀ n back stop, Laid (k n back stop) (bytes3 (fmt5Word (stringOpts stop back false) op n.bits)) [] []) →
      (∀ step stop, Laid (kt step stop) (bytes3 (fmt5Word (stringOpts stop step.back true) op step.len.bits)) [] []) →
      bytes3 (fmt5Word short op i) ++ bs = encode x ++ rest := by
    intro k kt h hl hlt
    obtain ⟨rfl, n, back, stop, ⟨rfl, hw⟩ | ⟨rfl, hw⟩⟩ := eq_of_decodeString h <;> rw [hw]
    · exact sound_plain (hl n back stop)
    · exact sound_plain (hlt ⟨n, back⟩ stop)
  obtain ⟨rfl, h⟩ | ⟨-, h⟩ := ite_eq_iff.1 h
  · exact string h (fun _ _ _ => ⟨rfl, rfl, rfl⟩) (fun _ _ => ⟨rfl, rfl, rfl⟩)
  obtain ⟨rfl, h⟩ | ⟨-, h⟩ := ite_eq_iff.1 h
  · exact string h (fun _ _ _ => ⟨rfl, rfl, rfl⟩) (fun _ _ => ⟨rfl, rfl, rfl⟩)
  obtain ⟨rfl, hset⟩ | ⟨-, h⟩ := ite_eq_iff.1 h
  · obtain ⟨rfl, hset⟩ | ⟨-, herr⟩ := ite_eq_iff.1 hset
    · cases hset
      exact sound_plain ⟨rfl, rfl, rfl⟩
    · cases herr
  obtain ⟨rfl, h⟩ | ⟨-, h⟩ := ite_eq_iff.1 h
  · exact string h (fun _ _ _ => ⟨rfl, rfl, rfl⟩) (fun _ _ => ⟨rfl, rfl, rfl⟩)
  obtain ⟨rfl, h⟩ | ⟨-, h⟩ := ite_eq_iff.1 h
  · exact bb h (fun _ _ => ⟨rfl, rfl, rfl⟩)
  obtain ⟨rfl, h⟩ | ⟨-, h⟩ := ite_eq_iff.1 h
  · exact plain h ⟨rfl, rfl, rfl⟩
  obtain ⟨rfl, h⟩ | ⟨-, h⟩ := ite_eq_iff.1 h
  · exact bb h (fun _ _ => ⟨rfl, rfl, rfl⟩)
  obtain ⟨rfl, h⟩ | ⟨-, h⟩ := ite_eq_iff.1 h
  · exact eq_of_decodeMovmp h
  obtain ⟨rfl, h⟩ | ⟨-, h⟩ := ite_eq_iff.1 h
  · exact plain h ⟨rfl, rfl, rfl⟩
  obtain ⟨rfl, h⟩ | ⟨-, h⟩ := ite_eq_iff.1 h
  · obtain ⟨ones, rfl, rfl, hw⟩ := eq_of_decodeTbits h
    rw [hw]
    exact sound_plain ⟨rfl, rfl, rfl⟩
  obtain ⟨rfl, h⟩ | ⟨-, h⟩ := ite_eq_iff.1 h
  · exact bb h (fun _ _ => ⟨rfl, rfl, rfl⟩)
  obtain ⟨rfl, h⟩ | ⟨-, h⟩ := ite_eq_iff.1 h
  · exact plain h ⟨rfl, rfl, rfl⟩
  obtain ⟨rfl, h⟩ | ⟨-, h⟩ := ite_eq_iff.1 h
  · exact plain h ⟨rfl, rfl, rfl⟩
  obtain ⟨rfl, h⟩ | ⟨-, h⟩ := ite_eq_iff.1 h
  · exact plain h ⟨rfl, rfl, rfl⟩
  obtain ⟨rfl, h⟩ | ⟨-, h⟩ := ite_eq_iff.1 h
  · exact bb h (fun _ _ => ⟨rfl, rfl, rfl⟩)
  cases h

end Sys2Proof.Proofs
end

section
/-! PROOFS about the encoding, eighth part: Formats 0 and 1, and the removed instructions of Formats 8, 14 and 15. -/

namespace Sys2Proof.Proofs

/-! ### Formats 0 and 1 -/

theorem sound_fmt0 {b : Byte} {x : Instr} {bs rest : List Byte} (hlow : b.extractLsb' 0 4 = 0xA#4)
    (h : decodeFmt0 b bs = .ok (x, rest)) : b :: bs = encode x ++ rest := by
  obtain ⟨rfl, h⟩ | ⟨-, h⟩ := ite_eq_iff.1 h
  · exact sound_disp (basic := [0xEA#8]) (pre := []) h (fun _ => ⟨rfl, rfl, rfl⟩)
  · have hb : (Cond.ofCode (b.extractLsb' 4 4)).code ++ 0xA#4 = b :=
      append_eq_iff.2 ⟨(code_ofCode_cond _).symm, hlow⟩
    have hbytes := sound_disp (basic := [(Cond.ofCode (b.extractLsb' 4 4)).code ++ 0xA#4]) (pre := []) h
      (fun _ => ⟨rfl, rfl, rfl⟩)
    rwa [hb] at hbytes

theorem sound_fmt1 {b : Byte} {x : Instr} {bs rest : List Byte} (hlow : b.extractLsb' 0 4 = 0x2#4)
    (h : decodeFmt1 b bs = .ok (x, rest)) : b :: bs = encode x ++ rest := by
  have hb : ∀ {n : Nat}, (b.extractLsb' 4 4).toNat = n → b = BitVec.ofNat 4 n ++ 0x2#4 := fun hn =>
    (append_eq_iff.2 ⟨eq_ofNat_of_toNat hn, hlow⟩).symm
  simp only [decodeFmt1] at h
  split at h
  case h_1 hn | h_2 hn | h_3 hn | h_4 hn | h_5 hn =>
    rw [hb hn]
    exact sound_disp (basic := [_]) (pre := []) h (fun _ => ⟨rfl, rfl, rfl⟩)
  case h_6 hn =>
    cases h
    rw [hb hn]
    exact sound_plain (basic := [_]) ⟨rfl, rfl, rfl⟩
  case h_7 hn | h_8 hn | h_10 hn =>
    obtain ⟨⟨l, bs1⟩, hl, h⟩ := dec_bind_eq_ok.1 h
    rw [nextByte_eq_ok.1 hl]
    cases h
    rw [hb hn]
    exact sound_byte (basic := [_]) ⟨rfl, rfl, rfl⟩
  case h_9 hn =>
    obtain ⟨⟨l, bs1⟩, hl, h⟩ := dec_bind_eq_ok.1 h
    rw [nextByte_eq_ok.1 hl, hb hn]
    exact sound_disp (basic := [_]) (pre := [l]) h (fun _ => ⟨rfl, rfl, rfl⟩)
  case h_11 hn | h_12 hn | h_13 hn | h_14 hn | h_15 hn =>
    cases h
    rw [hb hn]
    exact sound_plain (basic := [_]) ⟨rfl, rfl, rfl⟩
  case h_16 h0 h1 h2 h3 h4 h5 h6 h7 h8 h9 h10 h11 h12 h13 h14 =>
    have hn : (b.extractLsb' 4 4).toNat = 15 := by
      revert h0 h1 h2 h3 h4 h5 h6 h7 h8 h9 h10 h11 h12 h13 h14
      generalize b.extractLsb' 4 4 = v
      revert v
      decide
    cases h
    rw [hb hn]
    exact sound_plain (basic := [_]) ⟨rfl, rfl, rfl⟩

/-! ### The removed instructions -/

theorem takeWord3_word (b : Byte) (w : Word16) (bs : List Byte) : takeWord3 b (bytes2 w ++ bs) = .ok (w ++ b, bs) := by
  have hb : (w ++ b).extractLsb' 0 8 = b := BitVec.extractLsb'_append_eq_right
  have hw := takeWord3_bytes3 (w ++ b) bs
  have hbytes := bytes3_word w b
  simp only [bytes3, List.cons.injEq] at hbytes
  rw [hb] at hw
  rw [← hbytes.2]
  exact hw

/-- The word behind the first byte. -/
theorem word_of_append (b : Byte) (w : Word16) : (w ++ b).extractLsb' 8 16 = w := BitVec.extractLsb'_append_eq_left

theorem decode_fmt14 (w : Word16) (bs : List Byte) : decode (0x1E#8 :: bytes2 w ++ bs) = decodeFmt14 w bs := by
  simp [decode, takeWord3_word, word_of_append]

theorem decode_fmt15 {b : Byte} (hb : b ∈ [0x16#8, 0x36#8, 0xB6#8]) (w : Word16) (bs : List Byte) :
    decode (b :: bytes2 w ++ bs) = decodeFmt15 b w bs := by
  simp only [List.mem_cons, List.not_mem_nil, or_false] at hb
  rcases hb with rfl | rfl | rfl <;> simp [decode, takeWord3_word, word_of_append]

theorem sound_fmt14 {w : Word16} {x : Instr} {bs rest : List Byte} (h : decodeFmt14 w bs = .ok (x, rest)) :
    0x1E#8 :: bytes2 w ++ bs = encode x ++ rest := by
  obtain ⟨-, -, h⟩ := dec_bind_eq_ok.1 h
  obtain ⟨-, herr⟩ | ⟨-, h⟩ := ite_eq_iff.1 h
  · cases herr
  dsimp only at h
  split at h
  case h_5 => cases h
  all_goals
    cases h
    exact sound_plain ⟨rfl, rfl, rfl⟩

theorem sound_fmt15 {b : Byte} {w : Word16} {x : Instr} {bs rest : List Byte} (h : decodeFmt15 b w bs = .ok (x, rest)) :
    b :: bytes2 w ++ bs = encode x ++ rest := by
  simp only [decodeFmt15] at h
  split at h
  case h_4 => cases h
  all_goals
    next hb =>
    obtain rfl := eq_ofNat_of_toNat hb
    split at h <;> cases h <;> exact sound_plain ⟨rfl, rfl, rfl⟩

end Sys2Proof.Proofs
end

section
/-! PROOFS about the encoding, ninth part: the round trip of decoder and encoder in both directions. -/

namespace Sys2Proof.Proofs

theorem complete_byte {x : Instr} {b : Byte} {basic rest : List Byte} (hl : Laid x basic [] [b])
    (hdec : ∀ bs, decode (basic ++ b :: bs) = .ok (x, bs)) : decode (encode x ++ rest) = .ok (x, rest) := by
  have hbytes : encode x ++ rest = basic ++ b :: rest := by rw [hl.encode_eq]; simp [operandBytes]
  rw [hbytes, hdec]

theorem complete_fmt5 {x : Instr} {short op : BitVec 4} {i : BitVec 2} {rest : List Byte}
    (hl : Laid x (bytes3 (fmt5Word short op i)) [] []) (hdec : ∀ bs, decodeFmt5 (fmt5Word short op i) bs = .ok (x, bs)) :
    decode (encode x ++ rest) = .ok (x, rest) :=
  complete_plain hl (fun bs => by rw [decode_fmt5 bs (by simp only [fmt5Word_fields]), hdec])

theorem fmt5Word_bit14 (short op : BitVec 4) (i : BitVec 2) : (fmt5Word short op i).getLsbD 14 = false := by
  obtain ⟨-, -, h14, -⟩ := fmt5Word_fields short op i
  exact getLsbD_eq_false_iff.2 h14

/-- The bits of Formats 11 and 12 that the decoder looks at one by one. -/
theorem fmt11_bits (c1 c2 : BitVec 5) (op : BitVec 4) (f : FLen) (first : BitVec 8) :
    (fmt6Word c1 c2 op (0#1 ++ f.bit) first).getLsbD 9 = false ∧
      (fmt6Word c1 c2 op (0#1 ++ f.bit) first).getLsbD 6 = first.getLsbD 6 ∧
      (fmt6Word c1 c2 op (0#1 ++ f.bit) first).extractLsb' 8 1 = f.bit := by
  obtain ⟨-, -, -, hi, hfirst⟩ := fmt6Word_fields c1 c2 op (0#1 ++ f.bit) first
  obtain ⟨hhigh, hlow⟩ := extract_eq_append_iff.1
    (show (fmt6Word c1 c2 op (0#1 ++ f.bit) first).extractLsb' 8 (1 + 1) = 0#1 ++ f.bit from hi)
  refine ⟨getLsbD_eq_false_iff.2 hhigh, ?_, hlow⟩
  rw [← hfirst, BitVec.getLsbD_extractLsb', hfirst]
  rfl

theorem ofBits_intLen_of_ne {c : BitVec 2} (h : (c != 0b10#2) = true) : ∃ n, IntLen.ofBits c = .ok n := by
  have hall : ∀ c : BitVec 2, (c != 0b10#2) = true → c = IntLen.b.bits ∨ c = IntLen.w.bits ∨ c = IntLen.d.bits := by
    decide
  rcases hall c h with rfl | rfl | rfl <;> exact ⟨_, ofBits_bits_intLen _⟩

theorem decodeFmt14_of_ok {w : Word16} {bs : List Byte} (h : fmt14Ok w = true) : decodeFmt14 w bs =
    match opField w with
    | 0 => .ok (.rdval w, bs)
    | 1 => .ok (.wrval w, bs)
    | 2 => .ok (.lmr w, bs)
    | 3 => .ok (.smr w, bs)
    | op => .error (.unassignedOpcode 0x1E#8 op) := by
  obtain ⟨hlen, h6⟩ := Bool.and_eq_true_iff.1 h
  obtain ⟨n, hn⟩ := ofBits_intLen_of_ne hlen
  rw [Bool.not_eq_true'] at h6
  simp only [decodeFmt14, hn, h6, dec_ok_bind]
  rfl

theorem complete_fmt15 {x : Instr} {b : Byte} {w : Word16} {rest : List Byte} (hb : b ∈ [0x16#8, 0x36#8, 0xB6#8])
    (hl : Laid x (b :: bytes2 w) [] []) (hdec : ∀ bs, decodeFmt15 b w bs = .ok (x, bs)) :
    decode (encode x ++ rest) = .ok (x, rest) :=
  complete_plain hl (fun bs => by rw [decode_fmt15 hb, hdec])

theorem complete_fmt8_removed {x : Instr} {w : Word16} {rest : List Byte} (hl : Laid x (0xAE#8 :: bytes2 w) [] [])
    (hdec : ∀ bs, decodeFmt8 (w ++ 0xAE#8) bs = .ok (x, bs)) : decode (encode x ++ rest) = .ok (x, rest) := by
  have hfirst : (w ++ 0xAE#8).extractLsb' 0 6 = (0xAE#8).extractLsb' 0 6 :=
    BitVec.extractLsb'_append_eq_of_add_le (by decide)
  refine complete_plain hl (fun bs => ?_)
  rw [← bytes3_word, decode_fmt8 bs hfirst, hdec]

theorem decodeFmt8_removed {w : Word16} {r : BitVec 3} {bs : List Byte} (hok : iFieldOk w = true)
    (hop : w.extractLsb' 2 4 = r ++ 1#1) : decodeFmt8 (w ++ 0xAE#8) bs =
      if r = 1#3 then .ok (.movsui w, bs) else if r = 3#3 then .ok (.movusi w, bs)
      else .error (.unassignedOpcode ((w ++ 0xAE#8).setWidth 8) 6) := by
  obtain ⟨hr, hhi⟩ := extract_eq_append_iff.1 (show w.extractLsb' 2 (3 + 1) = r ++ 1#1 from hop)
  have hopHi : (w ++ 0xAE#8).extractLsb' 10 1 = w.extractLsb' 2 1 := BitVec.extractLsb'_append_eq_of_le (by decide)
  have hreg : (w ++ 0xAE#8).extractLsb' 11 3 = w.extractLsb' (2 + 1) 3 := BitVec.extractLsb'_append_eq_of_le (by decide)
  have hi : (w ++ 0xAE#8).extractLsb' 8 2 = w.extractLsb' 0 2 := BitVec.extractLsb'_append_eq_of_le (by decide)
  have hopLo : (w ++ 0xAE#8).extractLsb' 6 2 = (0xAE#8).extractLsb' 6 2 :=
    BitVec.extractLsb'_append_eq_of_add_le (by decide)
  obtain ⟨n, hn⟩ := ofBits_intLen_of_ne hok
  rw [decodeFmt8, hopHi, hhi, hopLo, hreg, hr, hi, hn, word_of_append]
  rfl

theorem roundTrip_of_oneByte {i : Instr} (rest : List Byte) (h : i.wf = true) (hlen : i.basic.length = 1) :
    decode (encode i ++ rest) = .ok (i, rest) := by
  have hfields : i.fieldsOk = true := (Bool.and_eq_true_iff.1 h).2
  cases i with
  | reti | nop | wait | dia | flag | svc | bpt =>
    exact complete_plain ⟨rfl, rfl, rfl⟩ (fun _ => rfl)
  | br disp | bsr disp | ret disp | cxp disp | rxp disp | rett disp =>
    exact complete_disp (pre := []) hfields ⟨rfl, rfl, rfl⟩ (fun _ => rfl) rfl
  | bcond cond disp =>
    obtain ⟨hcond, hdisp⟩ := Bool.and_eq_true_iff.1 hfields
    cases cond with
    | always => cases hcond
    | _ => exact complete_disp (pre := []) hdisp ⟨rfl, rfl, rfl⟩ (fun _ => rfl) rfl
  | save list | restore list | exit list =>
    exact complete_byte ⟨rfl, rfl, rfl⟩ (fun _ => rfl)
  | enter list disp =>
    exact complete_disp (pre := [list]) hfields ⟨rfl, rfl, rfl⟩ (fun _ => rfl) rfl
  | _ => cases hlen

theorem roundTrip_of_twoBytes {i : Instr} (rest : List Byte) (h : i.wf = true) (hlen : i.basic.length = 2) :
    decode (encode i ++ rest) = .ok (i, rest) := by
  have hfields : i.fieldsOk = true := (Bool.and_eq_true_iff.1 h).2
  cases i with
  | addqb q dst | addqw q dst | addqd q dst | cmpqb q src | cmpqw q src | cmpqd q src | movqb q dst
  | movqw q dst | movqd q dst =>
    exact complete_fmt2 h ⟨rfl, rfl, rfl⟩ (by decide) rfl (fun _ _ => by simp only [decodeFmt2, fmt2Word_fields]; rfl)
  | scondb cond dst | scondw cond dst | scondd cond dst =>
    exact complete_fmt2 h ⟨rfl, rfl, rfl⟩ (by decide) rfl
      (fun _ _ => by simp only [decodeFmt2, fmt2Word_fields, ofCode_code_cond]; rfl)
  | sprb areg dst | sprw areg dst | sprd areg dst | lprb areg src | lprw areg src | lprd areg src =>
    exact complete_fmt2 h ⟨rfl, rfl, rfl⟩ (by decide) rfl
      (fun _ _ => by simp only [decodeFmt2, fmt2Word_fields, ofCode_code_areg]; rfl)
  | acbb q idx disp | acbw q idx disp | acbd q idx disp =>
    exact complete_fmt2_disp h hfields ⟨rfl, rfl, rfl⟩ (by decide) rfl
      (fun _ _ => by simp only [decodeFmt2, fmt2Word_fields]; rfl)
  | cxpd desc | bicpsrb src | bicpsrw src | bicpsrd src | jump dst | bispsrb src | bispsrw src | bispsrd src
  | adjspb src | adjspw src | adjspd src | jsr dst | caseb src | casew src | cased src =>
    exact complete_fmt3 h ⟨rfl, rfl, rfl⟩ (by decide) rfl
      (fun _ _ => by simp only [decodeFmt2, decodeFmt3, fmt2Word_fields]; rfl)
  | addb src dst | addw src dst | addd src dst | cmpb src1 src2 | cmpw src1 src2 | cmpd src1 src2 | bicb src dst
  | bicw src dst | bicd src dst | addcb src dst | addcw src dst | addcd src dst | movb src dst | movw src dst
  | movd src dst | orb src dst | orw src dst | ord src dst | subb src dst | subw src dst | subd src dst
  | addr src dst | andb src dst | andw src dst | andd src dst | subcb src dst | subcw src dst | subcd src dst
  | tbitb off base | tbitw off base | tbitd off base | xorb src dst | xorw src dst | xord src dst =>
    exact complete_fmt4 h ⟨rfl, rfl, rfl⟩ (by decide) rfl (fun _ _ _ => by simp only [decodeFmt4, fmt4Word_fields]; rfl)
  | _ => cases hlen

theorem roundTrip_of_threeBytes_operands {i : Instr} (rest : List Byte) (h : i.wf = true)
    (hkind : (i.basic.length == 3 && !i.operands.isEmpty) = true) :
    decode (encode i ++ rest) = .ok (i, rest) := by
  have hfields : i.fieldsOk = true := (Bool.and_eq_true_iff.1 h).2
  cases i with
  | roti len cnt dst | ashi len cnt dst | cbiti len off base | cbitii len off base | lshi len cnt dst
  | sbiti len off base | sbitii len off base | negi len src dst | noti len src dst | subpi len src dst
  | absi len src dst | comi len src dst | ibiti len off base | addpi len src dst =>
    exact complete_fmt6 h ⟨rfl, rfl, rfl⟩ rfl
      (fun _ _ _ => by simp only [decodeFmt6, fmt6Word_fields, ofBits_bits_intLen, dec_ok_bind]; rfl)
  | movmi len src dst disp | cmpmi len src1 src2 disp =>
    exact complete_fmt7_disp h (Bool.and_eq_true_iff.1 hfields).1 ⟨rfl, rfl, rfl⟩ rfl
      (fun _ _ _ => by simp only [decodeFmt7, fmt6Word_fields, ofBits_bits_intLen, dec_ok_bind]; rfl)
  | inssi len src base off size | extsi len base dst off size =>
    exact complete_fmt7_field h ⟨rfl, rfl, rfl⟩ rfl
      (fun _ _ _ => by simp only [decodeFmt7, fmt6Word_fields, ofBits_bits_intLen, dec_ok_bind]; rfl)
  | muli len src dst | meii len src dst | deii len src dst | quoi len src dst | remi len src dst
  | modi len src dst | divi len src dst =>
    exact complete_fmt7 h ⟨rfl, rfl, rfl⟩ rfl
      (fun _ _ _ => by simp only [decodeFmt7, fmt6Word_fields, ofBits_bits_intLen, dec_ok_bind]; rfl)
  | movxbw src dst | movzbw src dst | movzbd src dst | movzwd src dst | movxbd src dst | movxwd src dst =>
    exact complete_fmt7 h ⟨rfl, rfl, rfl⟩ rfl (fun _ _ _ => by simp only [decodeFmt7, fmt6Word_fields]; rfl)
  | exti len off base dst disp | insi len off src base disp =>
    exact complete_fmt8_disp h hfields ⟨rfl, rfl, rfl⟩ rfl
      (fun _ _ _ => by
        simp only [decodeFmt8, fmt8Word_fields, ofBits_bits_intLen, ofCode_code_reg]; rfl)
  | checki len dst bounds src | indexi len accum size idx | cvtp field base dst | ffsi field base off =>
    exact complete_fmt8 h ⟨rfl, rfl, rfl⟩ rfl
      (fun _ _ _ => by
        simp only [decodeFmt8, fmt8Word_fields, ofBits_bits_intLen, ofCode_code_reg]; rfl)
  | movif fl len src dst | movlf fl len src dst | movfl fl len src dst | roundfi fl len src dst
  | truncfi fl len src dst | floorfi fl len src dst =>
    exact complete_fmt9 h ⟨rfl, rfl, rfl⟩ rfl
      (fun _ _ _ => by simp only [decodeFmt9, fmt9Word_fields, ofBits_bits_intLen, ofBit_bit, dec_ok_bind]; rfl)
  | lfsr fl len src spare | sfsr fl len spare dst =>
    exact complete_fmt9_one h ⟨rfl, rfl, rfl⟩ rfl
      (fun _ => by simp only [decodeFmt9, fmt9Word_fields, ofBits_bits_intLen, ofBit_bit, dec_ok_bind]; rfl)
  | addf fl src dst | movf fl src dst | cmpf fl src1 src2 | subf fl src dst | negf fl src dst | divf fl src dst
  | mulf fl src dst | absf fl src dst | polyf fl src1 src2 | dotf fl src1 src2 | scalbf fl src dst
  | logbf fl src dst =>
    exact complete_fmt11 h (by decide) ⟨rfl, rfl, rfl⟩ rfl
      (fun _ _ _ => by simp only [decodeFmt11, fmt6Word_fields, fmt11_bits, ofBit_bit]; rfl)
  | _ => cases hkind

theorem roundTrip_of_threeBytes_plain {i : Instr} (rest : List Byte) (h : i.wf = true)
    (hkind : (i.basic.length == 3 && i.operands.isEmpty) = true) :
    decode (encode i ++ rest) = .ok (i, rest) := by
  have hfields : i.fieldsOk = true := (Bool.and_eq_true_iff.1 h).2
  cases i with
  | bbfor | extblt | movmpb | movmpw | movmpd | bitwt | sbitps | sbits =>
    exact complete_plain ⟨rfl, rfl, rfl⟩ (fun _ => rfl)
  | bbor da inv | bbxor da inv | bband da inv | bbstod da inv =>
    cases da <;> cases inv <;> exact complete_plain ⟨rfl, rfl, rfl⟩ (fun _ => rfl)
  | tbits ones =>
    cases ones <;> exact complete_plain ⟨rfl, rfl, rfl⟩ (fun _ => rfl)
  | movsi len back stop | cmpsi len back stop | skpsi len back stop | movsti step stop | cmpsti step stop
  | skpsti step stop =>
    exact complete_fmt5 ⟨rfl, rfl, rfl⟩
      (fun _ => by simp only [decodeFmt5, fmt5Word_fields, fmt5Word_bit14, decodeString_fmt5Word]; rfl)
  | setcfg opts =>
    exact complete_fmt5 ⟨rfl, rfl, rfl⟩ (fun _ => by simp only [decodeFmt5, fmt5Word_fields, fmt5Word_bit14]; rfl)
  | rdval word | wrval word | lmr word | smr word =>
    obtain ⟨hop, hok⟩ := Bool.and_eq_true_iff.1 hfields
    exact complete_plain (basic := 0x1E#8 :: bytes2 word) ⟨rfl, rfl, rfl⟩
      (fun bs => by rw [decode_fmt14, decodeFmt14_of_ok hok, eq_of_beq hop]; rfl)
  | movsui word =>
    obtain ⟨hop, hok⟩ := Bool.and_eq_true_iff.1 hfields
    exact complete_fmt8_removed ⟨rfl, rfl, rfl⟩
      (fun _ => by rw [decodeFmt8_removed (r := 1#3) hok (eq_ofNat_of_toNat (eq_of_beq hop))]; rfl)
  | movusi word =>
    obtain ⟨hop, hok⟩ := Bool.and_eq_true_iff.1 hfields
    exact complete_fmt8_removed ⟨rfl, rfl, rfl⟩
      (fun _ => by rw [decodeFmt8_removed (r := 3#3) hok (eq_ofNat_of_toNat (eq_of_beq hop))]; rfl)
  | catst1 word | lcr word | scr word | ccv0ci word | ccv1ci word | ccv2ci word | ccv3ci word | ccv4dq word
  | ccv5qd word | lcsr word | scsr word | ccal1c word | ccal2c word | ccal3c word | cmov0c word | cmov1c word
  | cmov2c word | cmov3c word | ccmp0c word | ccmp1c word =>
    exact complete_fmt15 (by decide) ⟨rfl, rfl, rfl⟩ (fun _ => by simp only [decodeFmt15, eq_of_beq hfields]; rfl)
  | catst0 word | ccal0c word =>
    simp only [Instr.fieldsOk, Bool.not_eq_true', Bool.or_eq_false_iff, beq_eq_false_iff_ne, ne_eq,
      List.contains_eq_mem, List.mem_cons, List.not_mem_nil, or_false, decide_eq_false_iff_not, not_or] at hfields
    refine complete_fmt15 (by decide) ⟨rfl, rfl, rfl⟩ (fun _ => ?_)
    simp [decodeFmt15, hfields]
  | _ => cases hkind

/-- Settles O1, by the length of the basic instruction (R80). -/
theorem decodeEncode : Obligations.DecodeEncode := by
  intro i rest h
  obtain ⟨hone, hthree, -⟩ := shape i
  have hlen : i.basic.length = 1 ∨ i.basic.length = 2 ∨ i.basic.length = 3 := by omega
  rcases hlen with hlen | hlen | hlen
  · exact roundTrip_of_oneByte rest h hlen
  · exact roundTrip_of_twoBytes rest h hlen
  · cases hops : i.operands.isEmpty with
    | true => exact roundTrip_of_threeBytes_plain rest h (by rw [hlen, hops]; rfl)
    | false => exact roundTrip_of_threeBytes_operands rest h (by rw [hlen, hops]; rfl)

/-! ### From bytes to an instruction -/

theorem takeWord2_eq_ok {b0 : Byte} {bs bs' : List Byte} {w : BitVec 16} (h : takeWord2 b0 bs = .ok (w, bs')) :
    ∃ b1 : Byte, w = b1 ++ b0 ∧ b0 :: bs = bytes2 w ++ bs' := by
  simp only [takeWord2, dec_bind_eq_ok, nextByte_eq_ok, Prod.exists] at h
  obtain ⟨b1, bs1, rfl, h⟩ := h
  cases h
  exact ⟨b1, rfl, (bytes2_append b0 b1 _).symm⟩

theorem takeWord3_eq_ok {b0 : Byte} {bs bs' : List Byte} {w : BitVec 24} (h : takeWord3 b0 bs = .ok (w, bs')) :
    ∃ w' : Word16, w = w' ++ b0 ∧ b0 :: bs = bytes3 w ++ bs' := by
  simp only [takeWord3, dec_bind_eq_ok, nextByte_eq_ok, Prod.exists] at h
  obtain ⟨b1, bs1, rfl, b2, bs2, rfl, h⟩ := h
  cases h
  exact ⟨b2 ++ b1, rfl, (bytes3_append b0 b1 b2 _).symm⟩

/-- Settles O2, by the low four bits of the first byte, which choose the format (R97). -/
theorem decodeSound : Obligations.DecodeSound := by
  intro bytes rest x h
  simp only [decode, dec_bind_eq_ok, nextByte_eq_ok, Prod.exists] at h
  obtain ⟨b, bs, rfl, h⟩ := h
  split at h
  case h_1 hlow => exact sound_fmt1 (eq_ofNat_of_toNat hlow) h
  case h_2 hlow =>
    obtain ⟨⟨w, bs1⟩, hw, h⟩ := dec_bind_eq_ok.1 h
    obtain ⟨w', rfl, hbytes⟩ := takeWord3_eq_ok hw
    rw [hbytes, bytes3_word]
    rw [word_of_append] at h
    exact sound_fmt15 h
  case h_3 hlow => exact sound_fmt0 (eq_ofNat_of_toNat hlow) h
  case h_4 hlow | h_5 hlow | h_6 hlow =>
    obtain ⟨⟨w, bs1⟩, hw, h⟩ := dec_bind_eq_ok.1 h
    obtain ⟨b1, rfl, hbytes⟩ := takeWord2_eq_ok hw
    have hones : (b1 ++ b).extractLsb' 2 2 = (b.extractLsb' 0 4).extractLsb' 2 2 := by
      rw [extract_extract b (by decide)]
      exact BitVec.extractLsb'_append_eq_of_add_le (by decide)
    rw [eq_ofNat_of_toNat hlow] at hones
    rw [hbytes]
    exact sound_fmt2 hones h
  case h_7 hlow =>
    obtain ⟨⟨w, bs1⟩, hw, h⟩ := dec_bind_eq_ok.1 h
    obtain ⟨w', rfl, hbytes⟩ := takeWord3_eq_ok hw
    have hb : ∀ {n : Nat}, (b.extractLsb' 4 4).toNat = n → b = BitVec.ofNat 4 n ++ 0xE#4 := fun hn =>
      (append_eq_iff.2 ⟨eq_ofNat_of_toNat hn, eq_ofNat_of_toNat hlow⟩).symm
    have hfirst : (w' ++ b).extractLsb' 0 8 = b := BitVec.extractLsb'_append_eq_right
    have hsix : (w' ++ b).extractLsb' 0 6 = b.extractLsb' 0 6 := BitVec.extractLsb'_append_eq_of_add_le (by decide)
    rw [hbytes]
    dsimp only at h
    split at h
    case h_1 hn => exact sound_fmt5 (hfirst.trans (hb hn)) h
    case h_2 hn =>
      rw [word_of_append] at h
      rw [bytes3_word, hb hn]
      exact sound_fmt14 h
    case h_3 hn | h_4 hn | h_5 hn | h_6 hn => exact sound_fmt8 (hsix.trans (by rw [hb hn]; rfl)) h
    case h_7 hn => exact sound_fmt9 (hfirst.trans (hb hn)) h
    case h_8 hn => exact sound_fmt6 (hfirst.trans (hb hn)) h
    case h_9 hn | h_10 hn => exact sound_fmt11 (by rw [hfirst, hb hn]; decide) h
    case h_11 hn => exact sound_fmt7 (hfirst.trans (hb hn)) h
    case h_12 => cases h
  case h_8 =>
    obtain ⟨⟨w, bs1⟩, hw, h⟩ := dec_bind_eq_ok.1 h
    obtain ⟨b1, rfl, hbytes⟩ := takeWord2_eq_ok hw
    rw [hbytes]
    exact sound_fmt4 h

end Sys2Proof.Proofs
end

section
/-! PROOFS about the encoding, tenth part: the length of an encoding, and words of the spec. -/

namespace Sys2Proof.Proofs

/-- The parts of an encoding add up to its size. -/
theorem encode_length (i : Instr) : (encode i).length = i.size := by
  have hops : ∀ ops : List Operand, (ops.flatMap (fun o => o.gen.indexBytes)).length +
      (ops.flatMap (fun o => o.gen.extBytes o.bytes)).length = (ops.map Operand.extLen).sum := by
    intro ops
    induction ops with
    | nil => rfl
    | cons o ops ih =>
      simp only [List.flatMap_cons, List.length_append, List.map_cons, List.sum_cons, Operand.extLen]
      omega
  simp only [encode, Instr.size, List.length_append, ← hops]
  omega

/-- Settles O4. -/
theorem encodingLength : Obligations.EncodingLength := by
  intro i
  obtain ⟨hbasic, -, -⟩ := shape i
  have hone : 1 ≤ i.size := by
    unfold Instr.size
    omega
  exact ⟨encode_length i, hone, instr_size_le i⟩

/-- Settles O3. -/
theorem decodeWords : Obligations.DecodeWords :=
  ⟨rfl, rfl, rfl, rfl, rfl, rfl, rfl, rfl, rfl, rfl⟩

end Sys2Proof.Proofs
end

section
/-! PROOFS about frames (O58, O59): what instructions that read a source and write a destination leave
unchanged. -/

namespace Sys2Proof.Proofs

open Sys2Proof.Machine Sys2Proof.Claims

/-! ### Changes of flags and open values -/

/-- Only the named flags differ, and how many open values have been drawn. -/
structure FlagsOnly (flags : List Flag) (s t : State) : Prop where
  frame : t = { s with psr := t.psr, freeIdx := t.freeIdx }
  psr : KeptPsr s t flags

section
variable {flags : List Flag} {s t u : State}

theorem FlagsOnly.refl (flags : List Flag) (s : State) : FlagsOnly flags s s := ⟨rfl, fun _ _ => rfl⟩

theorem FlagsOnly.trans (h : FlagsOnly flags s t) (k : FlagsOnly flags t u) : FlagsOnly flags s u :=
  ⟨by rw [k.frame, h.frame], fun b hb => (k.psr b hb).trans (h.psr b hb)⟩

theorem flagsOnly_drawFree (flags : List Flag) (s : State) : FlagsOnly flags s s.drawFree.2 := ⟨rfl, fun _ _ => rfl⟩

theorem flagsOnly_setFlag {fl : Flag} (hfl : fl ∈ flags) (s : State) (b : Bool) : FlagsOnly flags s (s.setFlag fl b) :=
  ⟨rfl, fun k hk => by rw [psr_setFlag, getLsbD_putFlag, if_neg (Ne.symm (hk fl hfl))]⟩

theorem flagsOnly_setCarryOverflow (s : State) (c o : Bool) : FlagsOnly [.c, .f] s (s.setCarryOverflow c o) :=
  (flagsOnly_setFlag (by decide) s c).trans (flagsOnly_setFlag (by decide) _ o)

theorem flagsOnly_absResult {w : Nat} (s : State) (a : BitVec w) : FlagsOnly [.f] s (absResult s a).2 := by
  unfold absResult
  split
  · exact (flagsOnly_drawFree _ s).trans (flagsOnly_setFlag (by decide) _ true)
  · exact flagsOnly_setFlag (by decide) s false

theorem flagsOnly_decimalResult (w : Nat) (s : State) (r : Option (Nat × Bool)) :
    FlagsOnly [.c, .f] s (decimalResult w s r).2 := by
  cases r with
  | some r => exact (flagsOnly_drawFree _ s).trans (flagsOnly_setCarryOverflow _ _ _)
  | none => exact ((flagsOnly_drawFree _ s).trans (flagsOnly_drawFree _ _)).trans (flagsOnly_setCarryOverflow _ _ _)

theorem flagsOnly_shiftResult {w : Nat} (left right : BitVec w → Nat → BitVec w) (s : State) (count : Byte) (v : BitVec w) :
    FlagsOnly [] s (shiftResult left right s count v).2 := by
  unfold shiftResult
  split
  · exact flagsOnly_drawFree _ s
  · split <;> exact .refl _ s

/-- A change of flags other than S leaves the current stack pointer. -/
theorem FlagsOnly.sp (h : FlagsOnly flags s t) (hs : Flag.s ∉ flags) : t.sp = s.sp := by
  refine sp_congr (by rw [h.frame]) (by rw [h.frame]) (h.psr _ (fun fl hfl hbit => ?_))
  exact hs (Flag.bit_injective.1 hbit ▸ hfl)

theorem FlagsOnly.place_eq (h : FlagsOnly flags s t) (hs : Flag.s ∉ flags) (g : Gen) : place g t = place g s :=
  place_congr g (by rw [h.frame]) (by rw [h.frame]) (by rw [h.frame]) (h.sp hs) (by rw [h.frame]) (by rw [h.frame])
    (by rw [h.frame])

end

/-! ### What KeptSpecial and the stack pointers see of a read, a change of flags, and a write -/

/-- A general operand that is placed in a register is that register. -/
theorem eq_of_place_reg {g : Gen} {s : State} {r : Reg} (h : place g s = .ok (.reg r)) : g = .plain (.reg r) := by
  cases g with
  | plain m =>
    cases m with
    | reg q =>
      cases h
      rfl
    | _ => simp [place, placeBase, bind_eq_ok] at h
  | scaled m x k => simp [place, bind_eq_ok] at h

theorem keptSpecial_of_parts {flags : List Flag} {s s1 s2 u : State} {i : Instr}
    (hread : s1 = { s with sp0 := s1.sp0, sp1 := s1.sp1 }) (hflags : FlagsOnly flags s1 s2)
    (hwrite : u = { s2 with regs := u.regs, sp0 := u.sp0, sp1 := u.sp1, mem := u.mem, unflushed := u.unflushed }) :
    KeptSpecial s (u.advance i) ∧ KeptPsr s (u.advance i) flags := by
  have hpsr : u.psr = s2.psr := by rw [hwrite]
  have hpsr1 : s1.psr = s.psr := by rw [hread]
  constructor
  · show KeptSpecial s { u with pc := (u.advance i).pc }
    rw [hwrite, hflags.frame, hread]
    exact ⟨rfl, rfl, rfl, rfl, rfl, rfl, rfl, rfl, rfl, rfl, rfl⟩
  · intro k hk
    show u.psr.getLsbD k = s.psr.getLsbD k
    rw [hpsr, hflags.psr k hk, hpsr1]

/-! ### Reading a source, reading and writing a destination (O58) -/

/-- The frame that O58 states. -/
def BinaryFrame (srcLen len : IntLen) (src dst : Gen) (flags : List Flag) (s t : State) : Prop :=
  KeptSpecial s t ∧ KeptPsr s t flags ∧ (∀ r, dst ≠ .plain (.reg r) → t.reg r = s.reg r) ∧
    (¬IsTos src → KeptStacks s t) ∧ (IsTos src → t.sp = s.sp + BitVec.ofNat 32 srcLen.bytes) ∧
    (IsReg dst → KeptMemory s t) ∧
    (∀ v s1 a, readInt srcLen src s = .ok (v, s1) → place dst s1 = .ok (.mem a) → KeptOutside s t a len.bytes)

theorem binaryFrame_of_parts {srcLen len : IntLen} {src dst : Gen} {flags : List Flag} {s s1 s2 u : State} {i : Instr}
    {a : IntVal srcLen} {l : Loc} {r : IntVal len} (hs : Flag.s ∉ flags) (hread : readInt srcLen src s = .ok (a, s1))
    (hplace : place dst s1 = .ok l) (hflags : FlagsOnly flags s1 s2) (hwrite : l.writeInt len r s2 = .ok u) :
    BinaryFrame srcLen len src dst flags s (u.advance i) := by
  have hframe := readInt_frame hread
  have hs1 := readInt_spec hread
  obtain ⟨hu, hreg, -, hstore, hmem⟩ := l.write_spec hwrite
  have hsp : (u.advance i).sp = s1.sp := by
    have hu2 : u.sp = s2.sp := sp_congr (by rw [hu]) (by rw [hu]) (by rw [State.flag, State.flag, hu])
    rw [sp_advance, hu2, hflags.sp hs]
  have hregs1 : ∀ q, s2.reg q = s.reg q := fun q => reg_congr (by rw [hflags.frame, hframe]) q
  have hmem2 : s2.mem = s.mem := by rw [hflags.frame, hframe]
  obtain ⟨hspecial, hpsr⟩ := keptSpecial_of_parts (i := i) hframe hflags (u := u) (by rw [hu])
  refine ⟨hspecial, hpsr, fun q hq => ?_, fun htos => ?_, fun htos => ?_, ?_, ?_⟩
  · rw [reg_advance, hreg q (fun hl => hq (eq_of_place_reg (hl ▸ hplace))), hregs1]
  · rw [if_neg (show ¬src = .plain .tos from htos)] at hs1
    have h0 : u.sp0 = s1.sp0 := by rw [hu, hflags.frame]
    have h1 : u.sp1 = s1.sp1 := by rw [hu, hflags.frame]
    exact ⟨h0.trans (by rw [hs1]), h1.trans (by rw [hs1])⟩
  · rw [hsp, hs1, if_pos (show src = .plain .tos from htos), sp_setSp]
  · rintro ⟨q, rfl⟩ k
    cases hplace
    obtain ⟨hu, -⟩ := hmem (fun b hb => by cases hb)
    rw [mem_advance, hu, hmem2]
  · intro v s1' b hread' hplace' k hk
    rw [hread] at hread'
    cases hread'
    rw [hplace] at hplace'
    cases hplace'
    obtain ⟨-, -, hout, -⟩ := store_spec (hstore b rfl)
    rw [mem_advance, hout k hk, hmem2]

theorem binaryFrame_of_binaryOp {i : Instr} {len : IntLen} {src dst : Gen} {flags : List Flag} {s t : State}
    {f : State → IntVal len → IntVal len → IntVal len × State} (hs : Flag.s ∉ flags)
    (hf : ∀ u a b, FlagsOnly flags u (f u a b).2) (h : finish (binaryOp i len src dst s f) = .next t) :
    BinaryFrame len len src dst flags s t := by
  obtain ⟨a, s1, hread, l, hplace, b, -, u, hwrite, rfl⟩ := binaryOp_eq_ok.1 (finish_eq_next.1 h)
  exact binaryFrame_of_parts hs hread hplace (hf s1 a b) hwrite

theorem binaryFrame_of_shiftOp {i : Instr} {len : IntLen} {cnt dst : Gen} {s t : State}
    {left right : IntVal len → Nat → IntVal len} (h : shiftOp i len cnt dst s left right = .next t) :
    BinaryFrame .b len cnt dst [] s t := by
  obtain ⟨n, s1, hread, l, hplace, b, -, u, hwrite, rfl⟩ := shiftOp_eq_next.1 h
  exact binaryFrame_of_parts (by decide) hread hplace (flagsOnly_shiftResult left right s1 n b) hwrite

theorem binaryFrame_of_logicOp {i : Instr} {len : IntLen} {src dst : Gen} {s t : State}
    {f : IntVal len → IntVal len → IntVal len} (h : logicOp i len src dst s f = .next t) :
    BinaryFrame len len src dst [] s t :=
  binaryFrame_of_binaryOp (by decide) (fun u _ _ => .refl _ u) h

/-- Settles O58: each instruction is one of the shared operations on a source and a destination. -/
theorem twoOperandFrame : Obligations.TwoOperandFrame := by
  intro len src dst i srcLen flags s t hi h
  have hcf : Flag.s ∉ [Flag.c, .f] := by decide
  show BinaryFrame srcLen len src dst flags s t
  simp only [List.mem_cons, Prod.mk.injEq, List.not_mem_nil, or_false] at hi
  rcases hi with ⟨rfl, rfl, rfl⟩ | ⟨rfl, rfl, rfl⟩ | ⟨rfl, rfl, rfl⟩ | ⟨rfl, rfl, rfl⟩ | ⟨rfl, rfl, rfl⟩ | ⟨rfl, rfl, rfl⟩ |
    ⟨rfl, rfl, rfl⟩ | ⟨rfl, rfl, rfl⟩ | ⟨rfl, rfl, rfl⟩ | ⟨rfl, rfl, rfl⟩ | ⟨rfl, rfl, rfl⟩ | ⟨rfl, rfl, rfl⟩ |
    ⟨rfl, rfl, rfl⟩ | ⟨rfl, rfl, rfl⟩
  iterate 4
    · cases srcLen <;> exact binaryFrame_of_binaryOp hcf (fun u _ _ => flagsOnly_setCarryOverflow u _ _) h
  iterate 4
    · cases srcLen <;> exact binaryFrame_of_logicOp h
  · exact binaryFrame_of_binaryOp (by decide) (fun u _ _ => .refl _ u) h
  iterate 2
    · exact binaryFrame_of_binaryOp hcf (fun u _ _ => flagsOnly_decimalResult _ u _) h
  iterate 3
    · exact binaryFrame_of_shiftOp h

/-! ### Reading a source, writing a destination (O59) -/

/-- The frame that O59 states. -/
def UnaryFrame (len1 len2 : IntLen) (src dst : Gen) (flags : List Flag) (s t : State) : Prop :=
  KeptSpecial s t ∧ KeptPsr s t flags ∧ (∀ r, dst ≠ .plain (.reg r) → t.reg r = s.reg r) ∧
    t.sp = s.sp + (if src = .plain .tos then BitVec.ofNat 32 len1.bytes else 0#32)
      - (if dst = .plain .tos then BitVec.ofNat 32 len2.bytes else 0#32) ∧
    (¬IsTos src → ¬IsTos dst → KeptStacks s t) ∧ (IsReg dst → KeptMemory s t) ∧
    (∀ v s1 a, readInt len1 src s = .ok (v, s1) → storeAddress dst len2.bytes s1 = .ok a → KeptOutside s t a len2.bytes)

theorem sp_readInt {len : IntLen} {g : Gen} {s t : State} {v : IntVal len} (h : readInt len g s = .ok (v, t)) :
    t.sp = s.sp + (if g = .plain .tos then BitVec.ofNat 32 len.bytes else 0#32) := by
  rw [readInt_spec h]
  split
  · rw [sp_setSp]
  · rw [BitVec.add_zero]

/-- A write of a general operand stores at `storeAddress`, or stores nothing. -/
theorem keptOutside_writeGen {g : Gen} {n : Nat} {v : Quad} {s t : State} {a : Dword} (h : writeGen g n v s = .ok t)
    (ha : storeAddress g n s = .ok a) : KeptOutside s t a n := by
  by_cases hg : g = .plain .tos
  · subst hg
    cases ha
    rw [writeGen_tos] at h
    obtain ⟨-, -, hout, -⟩ := store_spec h
    rwa [mem_setSp] at hout
  · have hplace : place g s = .ok (.mem a) := by
      unfold storeAddress at ha
      split at ha
      · exact absurd rfl hg
      · exact effAddr_eq_ok.1 ha
    rw [writeGen_of_ne _ _ _ _ hg, hplace, ok_bind] at h
    obtain ⟨-, -, hout, -⟩ := store_spec h
    exact hout

theorem FlagsOnly.storeAddress_eq {flags : List Flag} {s t : State} (h : FlagsOnly flags s t) (hs : Flag.s ∉ flags)
    (g : Gen) (n : Nat) : storeAddress g n t = storeAddress g n s := by
  unfold storeAddress
  split
  · rw [h.sp hs]
  · rw [effAddr, effAddr, h.place_eq hs]

theorem unaryFrame_of_parts {len1 len2 : IntLen} {src dst : Gen} {flags : List Flag} {s s1 s2 u : State} {i : Instr}
    {a : IntVal len1} {r : IntVal len2} (hs : Flag.s ∉ flags) (hread : readInt len1 src s = .ok (a, s1))
    (hflags : FlagsOnly flags s1 s2) (hwrite : writeInt len2 dst r s2 = .ok u) :
    UnaryFrame len1 len2 src dst flags s (u.advance i) := by
  have hframe := readInt_frame hread
  obtain ⟨hu, hreg, hsp, hstacks, hmem⟩ := writeGen_spec hwrite
  have hregs2 : ∀ q, s2.reg q = s.reg q := fun q => reg_congr (by rw [hflags.frame, hframe]) q
  have hmem2 : s2.mem = s.mem := by rw [hflags.frame, hframe]
  obtain ⟨hspecial, hpsr⟩ := keptSpecial_of_parts (i := i) hframe hflags hu
  refine ⟨hspecial, hpsr, fun q hq => ?_, ?_, fun hsrc hdst => ?_, fun hdst k => ?_, ?_⟩
  · rw [reg_advance, hreg q hq, hregs2]
  · rw [sp_advance, hsp, hflags.sp hs, sp_readInt hread]
    split
    · rfl
    · rw [BitVec.sub_zero]
  · obtain ⟨h0, h1⟩ := hstacks hdst
    have hs1 := readInt_spec hread
    rw [if_neg (show ¬src = .plain .tos from hsrc)] at hs1
    rw [hs1] at hflags
    exact ⟨h0.trans (by rw [hflags.frame]), h1.trans (by rw [hflags.frame])⟩
  · obtain ⟨hu, -⟩ := hmem hdst
    rw [mem_advance, hu, hmem2]
  · intro v s1' b hread' hb k hk
    rw [hread] at hread'
    cases hread'
    rw [← hflags.storeAddress_eq hs] at hb
    rw [mem_advance, keptOutside_writeGen hwrite hb k hk, hmem2]

theorem unaryFrame_of_unaryOp {i : Instr} {len : IntLen} {src dst : Gen} {flags : List Flag} {s t : State}
    {f : State → IntVal len → IntVal len × State} (hs : Flag.s ∉ flags) (hf : ∀ u a, FlagsOnly flags u (f u a).2)
    (h : finish (unaryOp i len src dst s f) = .next t) : UnaryFrame len len src dst flags s t := by
  obtain ⟨a, s1, hread, u, hwrite, rfl⟩ := unaryOp_eq_ok.1 (finish_eq_next.1 h)
  exact unaryFrame_of_parts hs hread (hf s1 a) hwrite

theorem unaryFrame_of_extendOp {i : Instr} {len1 len2 : IntLen} {src dst : Gen} {s t : State}
    {f : IntVal len1 → IntVal len2} (h : extendOp i len1 len2 src dst s f = .next t) : UnaryFrame len1 len2 src dst [] s t := by
  simp only [extendOp, finish_eq_next, bind_eq_ok, pure_eq_ok, Except.ok.injEq, Prod.exists] at h
  obtain ⟨a, s1, hread, u, hwrite, rfl⟩ := h
  exact unaryFrame_of_parts (by decide) hread (.refl _ s1) hwrite

/-- Settles O59: a move is an extension that changes nothing. -/
theorem moveFrame : Obligations.MoveFrame := by
  intro len1 len2 src dst i flags s t hi h
  show UnaryFrame len1 len2 src dst flags s t
  simp only [List.mem_cons, Prod.mk.injEq, List.not_mem_nil, or_false] at hi
  rcases hi with ⟨rfl, rfl, rfl, rfl⟩ | ⟨rfl, rfl, rfl, rfl⟩ | ⟨rfl, rfl, rfl, rfl⟩ | ⟨rfl, rfl, rfl, rfl⟩ |
    ⟨rfl, rfl, rfl, rfl⟩ | ⟨rfl, rfl, rfl, rfl⟩ | ⟨rfl, rfl, rfl, rfl⟩ | ⟨rfl, rfl, rfl, rfl⟩ | ⟨rfl, rfl, rfl, rfl⟩ |
    ⟨rfl, rfl, -, rfl⟩ | ⟨rfl, rfl, -, rfl⟩ | ⟨rfl, rfl, -, rfl⟩ | ⟨rfl, rfl, -, rfl⟩
  iterate 3
    · exact unaryFrame_of_extendOp (f := id) h
  iterate 6
    · exact unaryFrame_of_extendOp h
  · exact unaryFrame_of_unaryOp (by decide) (fun u _ => flagsOnly_setCarryOverflow u _ _) h
  · exact unaryFrame_of_unaryOp (by decide) (fun u a => flagsOnly_absResult u a) h
  iterate 2
    · exact unaryFrame_of_unaryOp (by decide) (fun u _ => .refl _ u) h

end Sys2Proof.Proofs
end

section
/-! PROOFS about undefined instructions (O44, O48) and effective addresses (O17). -/

namespace Sys2Proof.Proofs

open Sys2Proof.Machine Sys2Proof.Claims

/-! ### Undefined instructions -/

theorem trapHere_eq_next {e : Exception} {s t : State} (h : takeException e s.pc s = .ok t) : trapHere e s = .next t := by
  rw [trapHere, h, finish_ok]

/-- Settles O44: every removed instruction is the trap. -/
theorem removedTrap : Obligations.RemovedTrap := by
  refine ⟨rfl, fun w i s t hi h => ?_⟩
  have hexec : exec i s = trapHere .und s := by
    simp only [List.mem_cons, List.not_mem_nil, or_false] at hi
    obtain rfl | rfl | rfl | rfl | rfl | rfl | rfl | rfl | rfl | rfl | rfl | rfl | rfl | rfl | rfl | rfl | rfl | rfl | rfl |
      rfl | rfl | rfl | rfl | rfl | rfl | rfl | rfl | rfl := hi <;> rfl
  rw [hexec, trapHere_eq_next h]

/-- Settles O48: every floating-point instruction asks CFG.F first. -/
theorem floatDisabled : Obligations.FloatDisabled := by
  intro fl len g h spare i s t hf hi ht
  have hexec : ∃ r, exec i s = withFpu s r := by
    simp only [List.mem_cons, List.not_mem_nil, or_false] at hi
    obtain rfl | rfl | rfl | rfl | rfl | rfl | rfl | rfl | rfl | rfl | rfl | rfl | rfl | rfl | rfl | rfl | rfl | rfl | rfl |
      rfl := hi <;> exact ⟨_, rfl⟩
  obtain ⟨r, hr⟩ := hexec
  rw [hr, withFpu_disabled r hf, ht, finish_ok]

/-! ### Effective addresses (R96) -/

/-- Memory relative mode, from the double-word at its first address. -/
theorem place_memRel {b : RelBase} {d1 d2 : Disp} {s : State} {p : Dword} (h : s.load32 (s.relBase b + d1.val) = .ok p) :
    place (.plain (.memRel b d1 d2)) s = .ok (.mem (p + d2.val)) := by
  simp only [place, placeBase, h, ok_bind, pure_eq_ok]

/-- External mode, from the link table's address and the entry in it. -/
theorem place_external {d1 d2 : Disp} {s : State} {q p : Dword} (hq : s.load32 (s.mod.setWidth 32 + 4#32) = .ok q)
    (hp : s.load32 (q + 4#32 * d1.val) = .ok p) : place (.plain (.external d1 d2)) s = .ok (.mem (p + d2.val)) := by
  simp only [place, placeBase, hq, hp, ok_bind, pure_eq_ok]

/-- A scaled index over a mode in memory. -/
theorem place_scaled {m : BaseMode} {x : Reg} {k : Scale} {s : State} {a : Dword} (h : placeBase m s = .ok (.mem a)) :
    place (.scaled m x k) s = .ok (.mem (a + s.reg x * scaleFactor k)) := by
  simp only [place, h, indexBase, ok_bind, pure_eq_ok]

/-- Settles O17. -/
theorem effectiveAddresses : Obligations.EffectiveAddresses := by
  refine ⟨fun _ _ _ => rfl, fun _ _ _ _ h => place_memRel h, fun _ _ _ _ h => place_memRel h,
    fun _ _ _ _ h => place_memRel h, fun _ _ => rfl, fun _ _ _ _ _ hq hp => place_external hq hp,
    fun _ _ => ⟨rfl, rfl, rfl, rfl⟩, fun _ => rfl, fun s n v h => ?_, fun s n v => writeGen_tos n v s,
    fun s m x k a h => ?_⟩
  · rw [readGen_tos, h, ok_bind]
  · rw [place_scaled h]
    cases k <;> rfl

end Sys2Proof.Proofs
end

section
/-! PROOFS about string instructions (O34), first part: one element of a string, and the step to the next. -/

namespace Sys2Proof.Proofs

open Sys2Proof.Machine Sys2Proof.Claims

/-! ### The integer that bytes hold -/

/-- The bits of the integer that `n` bytes hold, the lowest byte the least significant. -/
theorem getLsbD_foldr_bytes {w : Nat} (n : Nat) (byte : Nat → Byte) {i : Nat} (hi : i < w) :
    ((List.range n).foldr (fun k (v : BitVec w) => v <<< 8 ||| (byte k).setWidth w) 0#w).getLsbD i =
      (decide (i < 8 * n) && (byte (i / 8)).getLsbD (i % 8)) := by
  induction n generalizing byte i with
  | zero => simp
  | succ n ih =>
    rw [List.range_succ_eq_map, List.foldr_cons, List.foldr_map, BitVec.getLsbD_or, BitVec.getLsbD_shiftLeft,
      BitVec.getLsbD_setWidth]
    by_cases h8 : i < 8
    · have hdiv : i / 8 = 0 := by omega
      have hmod : i % 8 = i := by omega
      have hlt : i < 8 * (n + 1) := by omega
      simp [h8, hi, hdiv, hmod, hlt]
    · have hhigh : (byte 0).getLsbD i = false := BitVec.getLsbD_of_ge _ _ (by omega)
      have hdiv : (i - 8) / 8 + 1 = i / 8 := by omega
      have hmod : (i - 8) % 8 = i % 8 := by omega
      have hlt : decide (i - 8 < 8 * n) = decide (i < 8 * (n + 1)) := by
        rw [decide_eq_decide]
        omega
      rw [hhigh, ih (fun k => byte (k + 1)) (by omega), hdiv, hmod, hlt]
      simp [h8, hi]

theorem getLsbD_elementAt (len : IntLen) (s : State) (a : Dword) {i : Nat} (hi : i < lenBits len) :
    (elementAt len s a).getLsbD i = (Memory.read s.mem (a.toNat + i / 8)).getLsbD (i % 8) := by
  have hlt : i < 8 * len.bytes := lenBits_eq len ▸ hi
  rw [elementAt, getLsbD_foldr_bytes _ (fun k => Memory.read s.mem (a.toNat + k)) hi, decide_eq_true hlt, Bool.true_and]

/-- Reading memory gives the element there. -/
theorem readInt_mem {len : IntLen} {s : State} {a : Dword} (h : Fits a len.bytes) :
    (Loc.mem a).readInt len s = .ok (elementAt len s a) := by
  obtain ⟨v, hv⟩ := load_of_fits s h
  simp only [Loc.readInt, Loc.read, hv, ok_bind, pure_eq_ok, Except.ok.injEq]
  apply BitVec.eq_of_getLsbD_eq
  intro i hi
  have h64 : i < 64 := lt_of_lt_of_le hi ((lenBits_le len).trans (by decide))
  have hlt : i < 8 * len.bytes := lenBits_eq len ▸ hi
  rw [getLsbD_elementAt len s a hi, BitVec.getLsbD_setWidth, decide_eq_true hi, Bool.true_and, getLsbD_load hv i h64,
    decide_eq_true hlt, Bool.true_and]

theorem elementAt_congr {len : IntLen} {s t : State} {a : Dword}
    (h : ∀ k, InRange k a len.bytes → Memory.read t.mem k = Memory.read s.mem k) :
    elementAt len t a = elementAt len s a := by
  apply BitVec.eq_of_getLsbD_eq
  intro i hi
  have hlt : i < 8 * len.bytes := lenBits_eq len ▸ hi
  rw [getLsbD_elementAt len t a hi, getLsbD_elementAt len s a hi, h _ ⟨by omega, by omega⟩]

theorem elementAt_congr_mem {len : IntLen} {s t : State} (h : t.mem = s.mem) (a : Dword) :
    elementAt len t a = elementAt len s a := elementAt_congr (fun _ _ => by rw [h])

/-! ### Reading an element -/

section
variable {len : IntLen} {o : StringOpts} {s t u : State}

/-- The state after an element is read: with option T an element longer than a byte draws an open value. -/
def afterElement (len : IntLen) (o : StringOpts) (s : State) : State := if o.translate ∧ len ≠ .b then drawn s else s

theorem afterElement_eq (len : IntLen) (o : StringOpts) (s : State) :
    afterElement len o s = { s with freeIdx := (afterElement len o s).freeIdx } := by
  unfold afterElement
  split <;> rfl

/-- The address of the `k`-th element of the string at R1. -/
def sourceAddress (len : IntLen) (o : StringOpts) (s : State) (k : Nat) : Dword :=
  s.reg .r1 + BitVec.ofNat 32 k * o.delta len

/-- The address of the `k`-th element of the string at R2. -/
def destAddress (len : IntLen) (o : StringOpts) (s : State) (k : Nat) : Dword :=
  s.reg .r2 + BitVec.ofNat 32 k * o.delta len

/-- The `k`-th element of the string at R1, as the string instructions see it. -/
def elementOf (len : IntLen) (o : StringOpts) (s : State) (k : Nat) : IntVal len :=
  sourceElement len o.translate (o.delta len) s k

theorem sourceAddress_zero (len : IntLen) (o : StringOpts) (s : State) : sourceAddress len o s 0 = s.reg .r1 := by
  simp [sourceAddress]

theorem destAddress_zero (len : IntLen) (o : StringOpts) (s : State) : destAddress len o s 0 = s.reg .r2 := by
  simp [destAddress]

/-- What a string instruction may touch of its source: its elements, and with option T on bytes the table. -/
structure SourceFits (len : IntLen) (o : StringOpts) (n : Nat) (s : State) : Prop where
  elements : ∀ k < n, Fits (sourceAddress len o s k) len.bytes
  table : o.translate = true → len = .b → Fits (s.reg .r3) 256

theorem fits_table {a : Dword} (h : Fits a 256) (v : IntVal .b) : Fits (a + v.setWidth 32) 1 := by
  have hv : v.toNat < 2 ^ 8 := v.isLt
  unfold Fits at h ⊢
  rw [BitVec.toNat_add, BitVec.toNat_setWidth]
  omega

/-- The element at R1, as the loops read it. -/
theorem stringElement_of_fits {n : Nat} (h : SourceFits len o (n + 1) s) :
    stringElement len o s = .ok (elementOf len o s 0, afterElement len o s) := by
  have hfits := h.elements 0 (by omega)
  have hzero := sourceAddress_zero len o s
  rw [hzero] at hfits
  rw [sourceAddress] at hzero
  rw [stringElement, readInt_mem hfits, ok_bind]
  obtain ⟨translate, back, stop⟩ := o
  cases translate with
  | false =>
    simp only [elementOf, sourceElement, hzero]
    rfl
  | true =>
    cases len with
    | b =>
      have htab := readInt_mem (len := .b) (s := s) (fits_table (h.table rfl rfl) (elementAt .b s (s.reg .r1)))
      simp only [if_true, translateElement, htab, ok_bind, elementOf, sourceElement, hzero]
      rfl
    | w | d => rfl

/-- The model's test of options U and W is the statement's. -/
theorem stringStops_iff {v : IntVal len} : stringStops len o v s = true ↔ StopsAt len o.stop s v := by
  unfold stringStops StopsAt
  cases o.stop <;> simp

theorem stopsAt_congr {stop : StopRule} {v : IntVal len} (h : t.reg .r4 = s.reg .r4) :
    StopsAt len stop t v ↔ StopsAt len stop s v := by
  unfold StopsAt
  rw [h]

/-! ### The step to the next element -/

theorem index_succ (a d : Dword) (k : Nat) : a + d + BitVec.ofNat 32 k * d = a + BitVec.ofNat 32 (k + 1) * d := by
  rw [BitVec.ofNat_add, BitVec.add_mul, BitVec.one_mul, BitVec.add_assoc, BitVec.add_comm d]

/-- What the next element's state keeps of this one's. -/
structure NextElement (len : IntLen) (o : StringOpts) (s u : State) : Prop where
  r0 : u.reg .r0 = s.reg .r0 - 1#32
  r1 : u.reg .r1 = s.reg .r1 + o.delta len
  r3 : u.reg .r3 = s.reg .r3
  r4 : u.reg .r4 = s.reg .r4
  psr : u.psr = s.psr
  freeIdx : u.freeIdx = (afterElement len o s).freeIdx

theorem nextElement_advance {both : Bool} (hregs : t.regs = s.regs) (hpsr : t.psr = s.psr)
    (hfree : t.freeIdx = (afterElement len o s).freeIdx) : NextElement len o s (stringAdvance len o both t) where
  r0 := by cases both <;> simp [stringAdvance, reg_setReg, reg_congr hregs]
  r1 := by cases both <;> simp [stringAdvance, reg_setReg, reg_congr hregs]
  r3 := by cases both <;> simp [stringAdvance, reg_setReg, reg_congr hregs]
  r4 := by cases both <;> simp [stringAdvance, reg_setReg, reg_congr hregs]
  psr := by cases both <;> simp [stringAdvance, hpsr]
  freeIdx := by cases both <;> simp [stringAdvance, hfree]

theorem sourceAddress_next (h : NextElement len o s u) (k : Nat) :
    sourceAddress len o u k = sourceAddress len o s (k + 1) := by
  rw [sourceAddress, h.r1, index_succ, sourceAddress]

theorem SourceFits.next {n : Nat} (h : SourceFits len o (n + 1) s) (hn : NextElement len o s u) :
    SourceFits len o n u where
  elements k hk := sourceAddress_next hn k ▸ h.elements (k + 1) (by omega)
  table ht hl := hn.r3 ▸ h.table ht hl

/-- Where the source and the table read as before, the next state's elements are this one's from the second on. -/
theorem elementOf_next (hn : NextElement len o s u) (k : Nat)
    (hsrc : ∀ a, InRange a (sourceAddress len o s (k + 1)) len.bytes → Memory.read u.mem a = Memory.read s.mem a)
    (htab : o.translate = true → len = .b → ∀ v : IntVal .b, elementAt .b u (s.reg .r3 + v.setWidth 32) =
      elementAt .b s (s.reg .r3 + v.setWidth 32)) :
    elementOf len o u k = elementOf len o s (k + 1) := by
  have hel := elementAt_congr hsrc
  rw [sourceAddress] at hel
  have hfree := hn.freeIdx
  obtain ⟨translate, back, stop⟩ := o
  cases translate with
  | false => simp only [elementOf, sourceElement, hn.r1, index_succ, hel]
  | true =>
    cases len with
    | b =>
      simp only [elementOf, sourceElement, hn.r1, index_succ, hn.r3, hel]
      exact htab rfl rfl _
    | w | d =>
      have hdrawn : u.freeIdx + k = s.freeIdx + (k + 1) := by
        rw [hfree, afterElement, if_pos ⟨rfl, by decide⟩]
        show s.freeIdx + 1 + k = s.freeIdx + (k + 1)
        omega
      simp only [elementOf, sourceElement, hdrawn]

theorem elementOf_next_of_mem (hn : NextElement len o s u) (hm : u.mem = s.mem) (k : Nat) :
    elementOf len o u k = elementOf len o s (k + 1) :=
  elementOf_next hn k (fun _ _ => by rw [hm]) (fun _ _ _ => elementAt_congr_mem hm _)

end

end Sys2Proof.Proofs
end

section
/-! PROOFS about string instructions (O34), second part: what the three loops do, by induction on the elements left. -/

namespace Sys2Proof.Proofs

open Sys2Proof.Machine Sys2Proof.Claims

section
variable {len : IntLen} {o : StringOpts} {n m : Nat} {s t u : State}

/-! ### The state after an element, and the next -/

theorem regs_afterElement (len : IntLen) (o : StringOpts) (s : State) : (afterElement len o s).regs = s.regs := by
  rw [afterElement_eq]

theorem mem_afterElement (len : IntLen) (o : StringOpts) (s : State) : (afterElement len o s).mem = s.mem := by
  rw [afterElement_eq]

theorem psr_afterElement (len : IntLen) (o : StringOpts) (s : State) : (afterElement len o s).psr = s.psr := by
  rw [afterElement_eq]

theorem stringStops_afterElement {v : IntVal len} :
    stringStops len o v (afterElement len o s) = true ↔ StopsAt len o.stop s v := by
  rw [stringStops_iff, stopsAt_congr (reg_congr (regs_afterElement len o s) _)]

theorem nextElement_afterElement (len : IntLen) (o : StringOpts) (both : Bool) (s : State) :
    NextElement len o s (stringAdvance len o both (afterElement len o s)) :=
  nextElement_advance (regs_afterElement len o s) (psr_afterElement len o s) rfl

theorem mem_stringAdvance (both : Bool) (t : State) : (stringAdvance len o both t).mem = t.mem := by
  cases both <;> simp [stringAdvance]

theorem r2_stringAdvance (t : State) : (stringAdvance len o true t).reg .r2 = t.reg .r2 + o.delta len := by
  simp [stringAdvance, reg_setReg]

theorem destAddress_next (h : u.reg .r2 = s.reg .r2 + o.delta len) (k : Nat) :
    destAddress len o u k = destAddress len o s (k + 1) := by
  rw [destAddress, h, index_succ, destAddress]

/-- What holds of the first element and of all after it holds of all. -/
theorem forall_lt_succ_of_next {P : Nat → Prop} (hzero : P 0) (h : ∀ k < m, P (k + 1)) : ∀ k < m + 1, P k
  | 0, _ => hzero
  | k + 1, hk => h k (by omega)

/-! ### The elements a loop is done with -/

/-- `m` of `n` elements are done: R0 has counted them and R1 has moved past them. -/
structure Counted (len : IntLen) (o : StringOpts) (n : Nat) (s t : State) (m : Nat) : Prop where
  le : m ≤ n
  r0 : t.reg .r0 = s.reg .r0 - BitVec.ofNat 32 m
  r1 : t.reg .r1 = sourceAddress len o s m

theorem counted_zero (h : t.regs = s.regs) : Counted len o n s t 0 where
  le := Nat.zero_le n
  r0 := by rw [reg_congr h, BitVec.sub_zero]
  r1 := by rw [reg_congr h, sourceAddress_zero]

theorem Counted.next (h : Counted len o n u t m) (hn : NextElement len o s u) : Counted len o (n + 1) s t (m + 1) where
  le := Nat.succ_le_succ h.le
  r0 := by
    rw [h.r0, hn.r0, BitVec.ofNat_add]
    bv_omega
  r1 := by rw [h.r1, sourceAddress_next hn]

/-- None of `m` elements of an unchanging string stops a loop. -/
theorem passed_next (hn : NextElement len o s u) (hm : u.mem = s.mem) (hfirst : ¬StopsAt len o.stop s (elementOf len o s 0))
    (h : ∀ k < m, ¬StopsAt len o.stop u (elementOf len o u k)) :
    ∀ k < m + 1, ¬StopsAt len o.stop s (elementOf len o s k) := by
  refine forall_lt_succ_of_next hfirst (fun k hk => ?_)
  rw [← elementOf_next_of_mem hn hm, ← stopsAt_congr hn.r4]
  exact h k hk

/-! ### SKPS -/

/-- Where a search among `n` elements ends: `m` are passed, and one left over stops. -/
structure Searched (len : IntLen) (o : StringOpts) (n : Nat) (s t : State) (m : Nat) : Prop
    extends Counted len o n s t m where
  psr : t.psr = putFlag s.psr .f (decide (m < n))
  passed : ∀ k < m, ¬StopsAt len o.stop s (elementOf len o s k)
  stopped : m < n → StopsAt len o.stop s (elementOf len o s m)

theorem skipString_of_fits (h : SourceFits len o n s) : ∃ t m, skipString len o n s = .ok t ∧ Searched len o n s t m := by
  induction n generalizing s with
  | zero => exact ⟨_, 0, rfl, counted_zero rfl, rfl, fun k hk => by omega, fun hk => by omega⟩
  | succ n ih =>
    rw [skipString, stringElement_of_fits h, ok_bind]
    dsimp only
    by_cases hstop : StopsAt len o.stop s (elementOf len o s 0)
    · rw [if_pos (stringStops_afterElement.2 hstop)]
      refine ⟨_, 0, rfl, counted_zero (regs_afterElement len o s), ?_, fun k hk => by omega, fun _ => hstop⟩
      rw [psr_setFlag, psr_afterElement, decide_eq_true (Nat.succ_pos n)]
    · rw [if_neg (fun hs => hstop (stringStops_afterElement.1 hs))]
      have hn := nextElement_afterElement len o false s
      have hm := (mem_stringAdvance (len := len) (o := o) false _).trans (mem_afterElement len o s)
      obtain ⟨t, m, ht, hcount, hpsr, hpassed, hstopped⟩ := ih (h.next hn)
      refine ⟨t, m + 1, ht, hcount.next hn, ?_, passed_next hn hm hstop hpassed, fun hlt => ?_⟩
      · rw [hpsr, hn.psr]
        simp only [Nat.add_lt_add_iff_right]
      · rw [← elementOf_next_of_mem hn hm, ← stopsAt_congr hn.r4]
        exact hstopped (by omega)

/-! ### CMPS -/

/-- The flags a comparison ends with: the strings are done, or an element stops, or two elements differ. -/
inductive CompareEnd (len : IntLen) (o : StringOpts) (n : Nat) (s t : State) (m : Nat) : Prop where
  | done (h : m = n) (hpsr : t.psr = s.psr)
  | stopped (hlt : m < n) (h : StopsAt len o.stop s (elementOf len o s m)) (hpsr : t.psr = putFlag s.psr .f true)
  | differ (hlt : m < n) (h : ¬StopsAt len o.stop s (elementOf len o s m))
      (hne : elementOf len o s m ≠ elementAt len s (destAddress len o s m))
      (hpsr : t.psr = (s.setCompare (elementOf len o s m) (elementAt len s (destAddress len o s m))).psr)

/-- Where a comparison of `n` pairs ends: `m` pairs are passed and equal. -/
structure Compared (len : IntLen) (o : StringOpts) (n : Nat) (s t : State) (m : Nat) : Prop
    extends Counted len o n s t m where
  r2 : t.reg .r2 = destAddress len o s m
  passed : ∀ k < m, ¬StopsAt len o.stop s (elementOf len o s k)
  equal : ∀ k < m, elementOf len o s k = elementAt len s (destAddress len o s k)
  ends : CompareEnd len o n s t m

theorem CompareEnd.next (h : CompareEnd len o n u t m) (hn : NextElement len o s u) (hm : u.mem = s.mem)
    (hr2 : u.reg .r2 = s.reg .r2 + o.delta len) : CompareEnd len o (n + 1) s t (m + 1) := by
  have hel := elementOf_next_of_mem hn hm m
  have hother : elementAt len u (destAddress len o u m) = elementAt len s (destAddress len o s (m + 1)) := by
    rw [elementAt_congr_mem hm, destAddress_next hr2]
  cases h with
  | done h hpsr => exact .done (by rw [h]) (hpsr.trans hn.psr)
  | stopped hlt h hpsr =>
    rw [hel, stopsAt_congr hn.r4] at h
    exact .stopped (by omega) h (by rw [hpsr, hn.psr])
  | differ hlt h hne hpsr =>
    rw [hel, stopsAt_congr hn.r4] at h
    rw [hel, hother] at hne
    refine .differ (by omega) h hne ?_
    rw [hpsr, hel, hother, psr_setCompare, psr_setCompare, hn.psr]

theorem compareString_of_fits (h : SourceFits len o n s) (hdst : ∀ k < n, Fits (destAddress len o s k) len.bytes) :
    ∃ t m, compareString len o n s = .ok t ∧ Compared len o n s t m := by
  induction n generalizing s with
  | zero =>
    exact ⟨s, 0, rfl, counted_zero rfl, (destAddress_zero len o s).symm, fun k hk => by omega, fun k hk => by omega,
      .done rfl rfl⟩
  | succ n ih =>
    have hfits := hdst 0 (by omega)
    rw [destAddress_zero] at hfits
    have hregs := regs_afterElement len o s
    have hend : ∀ {t : State}, t.regs = s.regs → CompareEnd len o (n + 1) s t 0 → Compared len o (n + 1) s t 0 :=
      fun ht he => ⟨counted_zero ht, by rw [reg_congr ht, destAddress_zero], fun k hk => by omega, fun k hk => by omega,
        he⟩
    rw [compareString, stringElement_of_fits h, ok_bind]
    dsimp only
    by_cases hstop : StopsAt len o.stop s (elementOf len o s 0)
    · rw [if_pos (stringStops_afterElement.2 hstop)]
      exact ⟨_, 0, rfl, hend hregs (.stopped (by omega) hstop (by rw [psr_setFlag, psr_afterElement]))⟩
    · have hother : elementAt len (afterElement len o s) (s.reg .r2) = elementAt len s (destAddress len o s 0) := by
        rw [elementAt_congr_mem (mem_afterElement len o s), destAddress_zero]
      rw [if_neg (fun hs => hstop (stringStops_afterElement.1 hs)), reg_congr hregs, readInt_mem hfits, ok_bind, hother]
      by_cases heq : elementOf len o s 0 = elementAt len s (destAddress len o s 0)
      · rw [if_pos heq]
        have hn := nextElement_afterElement len o true s
        have hm := (mem_stringAdvance (len := len) (o := o) true _).trans (mem_afterElement len o s)
        have hr2 := (r2_stringAdvance (len := len) (o := o) (afterElement len o s)).trans (by rw [reg_congr hregs])
        have hnext := destAddress_next hr2
        obtain ⟨t, m, ht, hcount, htr2, hpassed, hequal, hends⟩ :=
          ih (h.next hn) (fun k hk => by rw [hnext]; exact hdst (k + 1) (by omega))
        refine ⟨t, m + 1, ht, hcount.next hn, by rw [htr2, hnext], passed_next hn hm hstop hpassed,
          forall_lt_succ_of_next heq (fun k hk => ?_), hends.next hn hm hr2⟩
        rw [← elementOf_next_of_mem hn hm, hequal k hk, elementAt_congr_mem hm, hnext]
      · rw [if_neg heq]
        refine ⟨_, 0, rfl, hend hregs (.differ (by omega) hstop heq ?_)⟩
        rw [psr_setCompare, psr_afterElement, psr_setCompare]

end

end Sys2Proof.Proofs
end

section
/-! PROOFS about string instructions (O34), third part: moving a string, and the instructions. -/

namespace Sys2Proof.Proofs

open Sys2Proof.Machine Sys2Proof.Claims

section
variable {len : IntLen} {o : StringOpts} {n m : Nat} {s t u w : State}

/-! ### Where the destination's elements lie -/

theorem bytes_pos (len : IntLen) : 0 < len.bytes ∧ len.bytes ≤ 4 := by cases len <;> decide

/-- Elements that all lie below 2^24 lie in a row: no address wraps between two of them. -/
theorem toNat_destAddress (h : ∀ k < n, Fits (destAddress len o s k) len.bytes) : ∀ k < n,
    if o.back then (destAddress len o s k).toNat + k * len.bytes = (s.reg .r2).toNat
    else (destAddress len o s k).toNat = (s.reg .r2).toNat + k * len.bytes := by
  intro k
  obtain ⟨hpos, hle⟩ := bytes_pos len
  have hbytes : (BitVec.ofNat 32 len.bytes).toNat = len.bytes := by
    rw [BitVec.toNat_ofNat]
    omega
  induction k with
  | zero => intro _; simp [destAddress_zero]
  | succ k ih =>
    intro hk
    have hprev := ih (by omega)
    have hfit := h k (by omega)
    have hfit' := h (k + 1) hk
    have hstep : destAddress len o s (k + 1) = destAddress len o s k + o.delta len := by
      rw [destAddress, destAddress, BitVec.ofNat_add, BitVec.add_mul, BitVec.one_mul, BitVec.add_assoc]
    unfold Fits at hfit hfit'
    rw [hstep] at hfit' ⊢
    rw [Nat.succ_mul]
    generalize destAddress len o s k = x at *
    unfold StringOpts.delta at hfit' ⊢
    split
    · next hb =>
      rw [if_pos hb] at hprev hfit'
      rw [← BitVec.sub_eq_add_neg] at hfit' ⊢
      rw [BitVec.toNat_sub, hbytes] at hfit' ⊢
      omega
    · next hb =>
      rw [if_neg hb] at hprev hfit'
      rw [BitVec.toNat_add, hbytes] at hfit' ⊢
      omega

/-- The first element of the destination is apart from the others. -/
theorem apart_destAddress (h : ∀ k < n + 1, Fits (destAddress len o s k) len.bytes) {k : Nat} (hk : k < n) :
    Apart (destAddress len o s 0) len.bytes (destAddress len o s (k + 1)) len.bytes := by
  have hspace := toNat_destAddress h (k + 1) (by omega)
  rw [Nat.succ_mul] at hspace
  rw [destAddress_zero]
  split at hspace
  · exact .inr (by omega)
  · exact .inl (by omega)

theorem not_inRange_of_apart {a b : Dword} {i j k : Nat} (h : Apart a i b j) (hk : InRange k a i) : ¬InRange k b j := by
  rintro ⟨hlow, hhigh⟩
  obtain ⟨hlow', hhigh'⟩ := hk
  rcases h with h | h <;> omega

/-- Storing an element. -/
theorem writeInt_mem {a : Dword} (h : Fits a len.bytes) (v : IntVal len) (s : State) :
    ∃ w, (Loc.mem a).writeInt len v s = .ok w ∧ w = { s with mem := w.mem, unflushed := w.unflushed } ∧
      KeptOutside s w a len.bytes ∧ elementAt len w a = v := by
  obtain ⟨w, hw⟩ := store_of_fits s (v.setWidth 64) h
  obtain ⟨hframe, -, hout, -⟩ := store_spec hw
  have hread : (Loc.mem a).readInt len w = .ok v := Loc.readInt_writeInt hw
  rw [readInt_mem h] at hread
  exact ⟨w, hw, hframe, hout, Except.ok.inj hread⟩

/-! ### MOVS -/

/-- The strings do not overlap, nor does the table with what is stored. -/
structure Separate (len : IntLen) (o : StringOpts) (n : Nat) (s : State) : Prop where
  source : ∀ j < n, ∀ k < n, Apart (sourceAddress len o s j) len.bytes (destAddress len o s k) len.bytes
  table : o.translate = true → len = .b → ∀ k < n, Apart (s.reg .r3) 256 (destAddress len o s k) 1

/-- Where moving `n` elements ends: `m` are moved, and no byte but theirs changes. -/
structure Moved (len : IntLen) (o : StringOpts) (n : Nat) (s t : State) (m : Nat) : Prop
    extends Counted len o n s t m where
  r2 : t.reg .r2 = destAddress len o s m
  psr : t.psr = putFlag s.psr .f (decide (m < n))
  unstopped : o.stop = .none → m = n
  outside : ∀ a, (∀ k < m, ¬InRange a (destAddress len o s k) len.bytes) → Memory.read t.mem a = Memory.read s.mem a
  moved : Separate len o n s → ∀ k < m, ¬StopsAt len o.stop s (elementOf len o s k) ∧
    elementAt len t (destAddress len o s k) = elementOf len o s k
  stopped : Separate len o n s → m < n → StopsAt len o.stop s (elementOf len o s m)

theorem Separate.next (h : Separate len o (n + 1) s) (hn : NextElement len o s u)
    (hr2 : u.reg .r2 = s.reg .r2 + o.delta len) : Separate len o n u where
  source j hj k hk := by
    rw [sourceAddress_next hn, destAddress_next hr2]
    exact h.source (j + 1) (by omega) (k + 1) (by omega)
  table ht hl k hk := by
    rw [hn.r3, destAddress_next hr2]
    exact h.table ht hl (k + 1) (by omega)

/-- What is stored at the first destination changes none of the other elements. -/
theorem Separate.elementOf_next (h : Separate len o (n + 1) s) (hfits : SourceFits len o (n + 1) s)
    (hn : NextElement len o s u) (hout : KeptOutside s u (destAddress len o s 0) len.bytes) {k : Nat} (hk : k < n) :
    elementOf len o u k = elementOf len o s (k + 1) := by
  refine Proofs.elementOf_next hn k (fun a ha => ?_) (fun ht hl v => ?_)
  · exact hout a (not_inRange_of_apart (h.source (k + 1) (by omega) 0 (by omega)) ha)
  · subst hl
    have hv : v.toNat < 2 ^ 8 := v.isLt
    have htab := hfits.table ht rfl
    have hsep := h.table ht rfl 0 (by omega)
    refine elementAt_congr (fun a ha => hout a (not_inRange_of_apart hsep ?_))
    obtain ⟨hlow, hhigh⟩ := ha
    unfold Fits at htab
    rw [BitVec.toNat_add, BitVec.toNat_setWidth] at hlow hhigh
    have hone : IntLen.b.bytes = 1 := rfl
    exact ⟨by omega, by omega⟩

theorem moveString_of_fits (h : SourceFits len o n s) (hdst : ∀ k < n, Fits (destAddress len o s k) len.bytes) :
    ∃ t m, moveString len o n s = .ok t ∧ Moved len o n s t m := by
  induction n generalizing s with
  | zero =>
    exact ⟨_, 0, rfl, counted_zero rfl, (destAddress_zero len o s).symm, rfl, fun _ => rfl, fun _ _ => rfl,
      fun _ k hk => by omega, fun _ hk => by omega⟩
  | succ n ih =>
    have hregs := regs_afterElement len o s
    rw [moveString, stringElement_of_fits h, ok_bind]
    dsimp only
    by_cases hstop : StopsAt len o.stop s (elementOf len o s 0)
    · rw [if_pos (stringStops_afterElement.2 hstop)]
      refine ⟨_, 0, rfl, counted_zero hregs, ?_, ?_, fun hnone => ?_, fun a _ => ?_, fun _ k hk => by omega,
        fun _ _ => hstop⟩
      · rw [reg_setFlag, reg_congr hregs, destAddress_zero]
      · rw [psr_setFlag, psr_afterElement, decide_eq_true (Nat.succ_pos n)]
      · rw [hnone] at hstop
        exact False.elim hstop
      · rw [mem_setFlag, mem_afterElement]
    · obtain ⟨w, hw, hframe, hout, hel⟩ := writeInt_mem (hdst 0 (by omega)) (elementOf len o s 0) (afterElement len o s)
      rw [if_neg (fun hs => hstop (stringStops_afterElement.1 hs)), reg_congr hregs, ← destAddress_zero, hw, ok_bind]
      have hwregs : w.regs = s.regs := by rw [hframe]; exact hregs
      have hn : NextElement len o s (stringAdvance len o true w) :=
        nextElement_advance hwregs (by rw [hframe]; exact psr_afterElement len o s) (by rw [hframe])
      have hr2 := (r2_stringAdvance (len := len) (o := o) w).trans (by rw [reg_congr hwregs])
      have hnext := destAddress_next hr2
      have hkept : KeptOutside s (stringAdvance len o true w) (destAddress len o s 0) len.bytes := fun a ha => by
        rw [mem_stringAdvance, hout a ha, mem_afterElement]
      obtain ⟨t, m, ht, hcount, htr2, hpsr, hunstopped, houtside, hmoved, hstopped⟩ :=
        ih (h.next hn) (fun k hk => by rw [hnext]; exact hdst (k + 1) (by omega))
      refine ⟨t, m + 1, ht, hcount.next hn, by rw [htr2, hnext], ?_, fun hnone => by rw [hunstopped hnone], fun a ha => ?_,
        fun hsep => forall_lt_succ_of_next ⟨hstop, ?_⟩ (fun k hk => ?_), fun hsep hlt => ?_⟩
      · rw [hpsr, hn.psr]
        simp only [Nat.add_lt_add_iff_right]
      · rw [houtside a (fun k hk => by rw [hnext]; exact ha (k + 1) (by omega)), hkept a (ha 0 (by omega))]
      · have hle := hcount.le
        rw [elementAt_congr (s := stringAdvance len o true w), elementAt_congr_mem (mem_stringAdvance true w), hel]
        intro a ha
        refine houtside a (fun k hk => ?_)
        rw [hnext]
        exact not_inRange_of_apart (apart_destAddress hdst (by omega)) ha
      · have hle := hcount.le
        obtain ⟨hpass, hcopy⟩ := hmoved (hsep.next hn hr2) k hk
        rw [hsep.elementOf_next h hn hkept (by omega)] at hpass hcopy
        rw [stopsAt_congr hn.r4] at hpass
        rw [hnext] at hcopy
        exact ⟨hpass, hcopy⟩
      · have hstops := hstopped (hsep.next hn hr2) (by omega)
        rwa [hsep.elementOf_next h hn hkept (by omega), stopsAt_congr hn.r4] at hstops

end

end Sys2Proof.Proofs
end

section
/-! PROOFS about string instructions (O34), fourth part: the instructions. -/

namespace Sys2Proof.Proofs

open Sys2Proof.Machine Sys2Proof.Claims

/-! ### What every string instruction leaves unchanged -/

section
variable {s t : State}

/-- A loop over a string changes three registers, PSR, memory, and the lists that go with it. -/
def StringFrame (s t : State) : Prop :=
  t = { s with regs := { s.regs with r0 := t.regs.r0, r1 := t.regs.r1, r2 := t.regs.r2 }, psr := t.psr, mem := t.mem,
               unflushed := t.unflushed, freeIdx := t.freeIdx }

theorem StringFrame.keptRegs (h : StringFrame s t) : KeptRegs s t [.r0, .r1, .r2] := by
  intro r hr
  rw [h]
  cases r with
  | r0 | r1 | r2 => simp at hr
  | r3 | r4 | r5 | r6 | r7 => rfl

/-- The instruction, of three bytes, that ends with the loop's state. -/
theorem StringFrame.advance (h : StringFrame s t) {i : Instr} (hsize : i.size = 3) :
    KeptStacks s (t.advance i) ∧ KeptSpecial s (t.advance i) ∧ (t.advance i).pc = s.pc + 3#32 := by
  have hpc : (t.advance i).pc = t.pc + BitVec.ofNat 32 i.size := rfl
  have hstacks : KeptStacks s t := by rw [h]; exact ⟨rfl, rfl⟩
  have hspecial : KeptSpecial s t := by rw [h]; exact ⟨rfl, rfl, rfl, rfl, rfl, rfl, rfl, rfl, rfl, rfl, rfl⟩
  refine ⟨hstacks, hspecial, ?_⟩
  rw [hpc, hsize, h]

theorem keptPsr_of_psr {flags : List Flag} {u : State} (h : KeptPsr s u flags) (hpsr : t.psr = u.psr) :
    KeptPsr s t flags := by
  intro k hk
  rw [hpsr, h k hk]

theorem flag_of_psr {u : State} (hpsr : t.psr = u.psr) (fl : Flag) : t.flag fl = u.flag fl := by
  rw [State.flag, hpsr, State.flag]

end

/-! ### The flags of a comparison -/

section
variable {len : IntLen} {o : StringOpts} {n m : Nat} {s t : State}

theorem flagsOnly_setCompare {w : Nat} {flags : List Flag} (h : ∀ fl ∈ [Flag.z, .n, .l], fl ∈ flags) (s : State)
    (a b : BitVec w) :
    FlagsOnly flags s (s.setCompare a b) :=
  ((flagsOnly_setFlag (h .z (by decide)) s _).trans (flagsOnly_setFlag (h .n (by decide)) _ _)).trans
    (flagsOnly_setFlag (h .l (by decide)) _ _)

theorem flagsOnly_compareStart (s : State) : FlagsOnly [.f, .z, .n, .l] s (compareStart s) :=
  (((flagsOnly_setFlag (by decide) s _).trans (flagsOnly_setFlag (by decide) _ _)).trans
    (flagsOnly_setFlag (by decide) _ _)).trans (flagsOnly_setFlag (by decide) _ _)

/-- The flags a comparison starts from do not show in its elements. -/
theorem elementOf_compareStart (len : IntLen) (o : StringOpts) (s : State) (k : Nat) :
    elementOf len o (compareStart s) k = elementOf len o s k := rfl

theorem other_compareStart (len : IntLen) (o : StringOpts) (s : State) (k : Nat) :
    elementAt len (compareStart s) (destAddress len o (compareStart s) k) = elementAt len s (destAddress len o s k) := rfl

theorem stopsAt_compareStart {stop : StopRule} {v : IntVal len} :
    StopsAt len stop (compareStart s) v ↔ StopsAt len stop s v :=
  stopsAt_congr rfl

theorem flag_compareStart (s : State) : (compareStart s).flag .f = false ∧ (compareStart s).flag .z = true ∧
    (compareStart s).flag .n = false ∧ (compareStart s).flag .l = false := by
  simp [compareStart, flag_setFlag]

theorem flag_setCompare {w : Nat} (s : State) (a b : BitVec w) : (s.setCompare a b).flag .f = s.flag .f ∧
    (s.setCompare a b).flag .z = (a == b) ∧ (s.setCompare a b).flag .n = decide (b.toInt < a.toInt) ∧
    (s.setCompare a b).flag .l = decide (b.toNat < a.toNat) := by
  simp [State.setCompare, flag_setFlag, BitVec.slt, BitVec.ult]

theorem keptPsr_compareEnd (h : CompareEnd len o n (compareStart s) t m) : KeptPsr s t [.f, .z, .n, .l] := by
  have hstart := flagsOnly_compareStart s
  cases h with
  | done _ hpsr => exact keptPsr_of_psr hstart.psr hpsr
  | stopped _ _ hpsr => exact keptPsr_of_psr (hstart.trans (flagsOnly_setFlag (fl := .f) (by decide) _ true)).psr hpsr
  | differ _ _ _ hpsr => exact keptPsr_of_psr (hstart.trans (flagsOnly_setCompare (by decide) _ _ _)).psr hpsr

/-- The three ends of a comparison, by their flags. -/
theorem flags_compareEnd (h : CompareEnd len o n (compareStart s) t m) :
    (t.flag .f = false ∧ m = n ∧ t.flag .z = true ∧ t.flag .n = false ∧ t.flag .l = false) ∨
    (t.flag .f = true ∧ m < n ∧ StopsAt len o.stop s (elementOf len o s m) ∧ t.flag .z = true ∧ t.flag .n = false ∧
      t.flag .l = false) ∨
    (t.flag .f = false ∧ m < n ∧ ¬StopsAt len o.stop s (elementOf len o s m) ∧
      elementOf len o s m ≠ elementAt len s (destAddress len o s m) ∧ t.flag .z = false ∧
      t.flag .n = decide ((elementAt len s (destAddress len o s m)).toInt < (elementOf len o s m).toInt) ∧
      t.flag .l = decide ((elementAt len s (destAddress len o s m)).toNat < (elementOf len o s m).toNat)) := by
  obtain ⟨hf, hz, hn, hl⟩ := flag_compareStart s
  cases h with
  | done h hpsr =>
    simp only [flag_of_psr hpsr]
    exact .inl ⟨hf, h, hz, hn, hl⟩
  | stopped hlt h hpsr =>
    have hset : t.psr = ((compareStart s).setFlag .f true).psr := hpsr
    rw [elementOf_compareStart, stopsAt_compareStart] at h
    simp only [flag_of_psr hset]
    exact .inr (.inl ⟨flag_setFlag_same _ _ _, hlt, h, (flag_setFlag_ne _ _ (by decide)).trans hz,
      (flag_setFlag_ne _ _ (by decide)).trans hn, (flag_setFlag_ne _ _ (by decide)).trans hl⟩)
  | differ hlt h hne hpsr =>
    rw [elementOf_compareStart, other_compareStart] at hne hpsr
    rw [elementOf_compareStart, stopsAt_compareStart] at h
    obtain ⟨hf', hz', hn', hl'⟩ :=
      flag_setCompare (compareStart s) (elementOf len o s m) (elementAt len s (destAddress len o s m))
    rw [hf] at hf'
    rw [beq_eq_false_iff_ne.2 hne] at hz'
    simp only [flag_of_psr hpsr]
    exact .inr (.inr ⟨hf', hlt, h, hne, hz', hn', hl'⟩)

end

/-! ### The instructions -/

theorem exec_movs (len : IntLen) (tr back : Bool) (stop : StopRule) (s : State) :
    exec (if tr then .movsti ⟨len, back⟩ stop else .movsi len back stop) s =
      finish (moveString len ⟨tr, back, stop⟩ (s.reg .r0).toNat s >>= fun t =>
        .ok (t.advance (if tr then .movsti ⟨len, back⟩ stop else .movsi len back stop))) := by
  cases tr <;> rfl

theorem exec_cmps (len : IntLen) (tr back : Bool) (stop : StopRule) (s : State) :
    exec (if tr then .cmpsti ⟨len, back⟩ stop else .cmpsi len back stop) s =
      finish (compareString len ⟨tr, back, stop⟩ (s.reg .r0).toNat (compareStart s) >>= fun t =>
        .ok (t.advance (if tr then .cmpsti ⟨len, back⟩ stop else .cmpsi len back stop))) := by
  cases tr <;> rfl

theorem exec_skps (len : IntLen) (tr back : Bool) (stop : StopRule) (s : State) :
    exec (if tr then .skpsti ⟨len, back⟩ stop else .skpsi len back stop) s =
      finish (skipString len ⟨tr, back, stop⟩ (s.reg .r0).toNat s >>= fun t =>
        .ok (t.advance (if tr then .skpsti ⟨len, back⟩ stop else .skpsi len back stop))) := by
  cases tr <;> rfl

/-- Settles O34: the three loops, with the instruction's own names for their strings. -/
theorem stringResult : Obligations.StringResult := by
  intro len tr back stop s n d src dst el other hd hn hsrc hdst hel hother hfits htable
  obtain rfl : d = (⟨tr, back, stop⟩ : StringOpts).delta len := hd
  obtain rfl : src = sourceAddress len ⟨tr, back, stop⟩ s := funext hsrc
  obtain rfl : dst = destAddress len ⟨tr, back, stop⟩ s := funext hdst
  obtain rfl : el = elementOf len ⟨tr, back, stop⟩ s := funext hel
  obtain rfl : other = fun k => elementAt len s (destAddress len ⟨tr, back, stop⟩ s k) := funext hother
  subst hn
  have hsource : SourceFits len ⟨tr, back, stop⟩ (s.reg .r0).toNat s := ⟨hfits, htable⟩
  refine ⟨fun hdest => ⟨?_, ?_⟩, ?_⟩
  · obtain ⟨t, m, ht, hmoved⟩ := moveString_of_fits hsource hdest
    have hframe : StringFrame s t := moveString_spec ht
    obtain ⟨hstacks, hspecial, hpc⟩ :=
      hframe.advance (i := if tr then .movsti ⟨len, back⟩ stop else .movsi len back stop) (by cases tr <;> rfl)
    refine ⟨t.advance (if tr then .movsti ⟨len, back⟩ stop else .movsi len back stop), m,
      by rw [exec_movs, ht, ok_bind, finish_ok], hmoved.le, hmoved.r0, hmoved.r1, hmoved.r2, hframe.keptRegs,
      keptPsr_putFlag hmoved.psr, flag_of_psr_putFlag hmoved.psr, hmoved.unstopped, hstacks, hspecial, hpc, hmoved.outside,
      fun hapart htab => ?_⟩
    have hsep : Separate len ⟨tr, back, stop⟩ (s.reg .r0).toNat s := ⟨hapart, htab⟩
    exact ⟨hmoved.moved hsep, hmoved.stopped hsep⟩
  · have hsource' : SourceFits len ⟨tr, back, stop⟩ (s.reg .r0).toNat (compareStart s) := ⟨hfits, htable⟩
    obtain ⟨t, m, ht, hcompared⟩ := compareString_of_fits hsource' hdest
    have hspec := compareString_spec ht
    have hmem : t.mem = s.mem := by rw [hspec]; rfl
    have hpsr := keptPsr_compareEnd hcompared.ends
    have hflags := flags_compareEnd hcompared.ends
    have hframe : StringFrame s t := by rw [StringFrame, hspec]; rfl
    obtain ⟨hstacks, hspecial, hpc⟩ :=
      hframe.advance (i := if tr then .cmpsti ⟨len, back⟩ stop else .cmpsi len back stop) (by cases tr <;> rfl)
    refine ⟨t.advance (if tr then .cmpsti ⟨len, back⟩ stop else .cmpsi len back stop), m,
      by rw [exec_cmps, ht, ok_bind, finish_ok], hcompared.le, hcompared.r0, hcompared.r1, hcompared.r2,
      hframe.keptRegs, hpsr, hmem, hstacks, hspecial, hpc,
      fun k hk => ?_, hflags⟩
    have hpass := hcompared.passed k hk
    have hequal := hcompared.equal k hk
    rw [elementOf_compareStart, stopsAt_compareStart] at hpass
    rw [elementOf_compareStart, other_compareStart] at hequal
    exact ⟨hpass, hequal⟩
  · obtain ⟨t, m, ht, hsearched⟩ := skipString_of_fits hsource
    have hspec := skipString_spec ht
    have hmem : t.mem = s.mem := by rw [hspec]
    have hr2 : t.reg .r2 = s.reg .r2 := by rw [hspec]; rfl
    have hframe : StringFrame s t := by rw [StringFrame, hspec]
    obtain ⟨hstacks, hspecial, hpc⟩ :=
      hframe.advance (i := if tr then .skpsti ⟨len, back⟩ stop else .skpsi len back stop) (by cases tr <;> rfl)
    refine ⟨t.advance (if tr then .skpsti ⟨len, back⟩ stop else .skpsi len back stop), m,
      by rw [exec_skps, ht, ok_bind, finish_ok], hsearched.le, hsearched.r0, hsearched.r1, fun r hr => ?_,
      keptPsr_putFlag hsearched.psr, flag_of_psr_putFlag hsearched.psr, hmem, hstacks, hspecial, hpc, hsearched.passed,
      hsearched.stopped⟩
    by_cases hr' : r = .r2
    · rw [hr']
      exact hr2
    · exact hframe.keptRegs r (by simpa [hr'] using hr)

end Sys2Proof.Proofs
end

section
/-! PROOFS about the BB series (O49 and O50), first part: what its loops leave unchanged, however they go. -/

namespace Sys2Proof.Proofs

open Sys2Proof.Machine Sys2Proof.Claims

/-! ### The instructions of the series -/

/-- The instruction is of the BB series, with this function and these options. -/
def IsBb (i : Instr) (fn : BbFn) (da inv : Bool) : Prop := (∀ s, exec i s = bbOp i fn da inv s) ∧ i.size = 3

theorem isBb_bbor (da inv : Bool) : IsBb (.bbor da inv) .or da inv := ⟨fun _ => rfl, rfl⟩
theorem isBb_bbxor (da inv : Bool) : IsBb (.bbxor da inv) .xor da inv := ⟨fun _ => rfl, rfl⟩
theorem isBb_bband (da inv : Bool) : IsBb (.bband da inv) .and da inv := ⟨fun _ => rfl, rfl⟩
theorem isBb_bbstod (da inv : Bool) : IsBb (.bbstod da inv) .stod da inv := ⟨fun _ => rfl, rfl⟩
theorem isBb_bbfor : IsBb .bbfor .fastOr false false := ⟨fun _ => rfl, rfl⟩

/-- The four instructions that have the options DA and S. -/
theorem isBb_of_mem {i : Instr} {da inv : Bool} (h : i ∈ [Instr.bbor da inv, .bbxor da inv, .bband da inv, .bbstod da inv]) :
    ∃ fn, IsBb i fn da inv := by
  simp only [List.mem_cons, List.not_mem_nil, or_false] at h
  rcases h with rfl | rfl | rfl | rfl
  · exact ⟨_, isBb_bbor da inv⟩
  · exact ⟨_, isBb_bbxor da inv⟩
  · exact ⟨_, isBb_bband da inv⟩
  · exact ⟨_, isBb_bbstod da inv⟩

/-- What an instruction of the series does, step by step (R114). -/
theorem bbOp_eq_next {i : Instr} {fn : BbFn} {da inv : Bool} {s t : State} : bbOp i fn da inv s = .next t ↔
    bbReady s = .ok () ∧ ∃ u, s.push32 s.fp = .ok u ∧ ∃ w, bbLines fn da inv (u.reg .r3).toNat u = .ok w ∧
      ∃ v, w.load32 w.sp = .ok v ∧ State.advance { w.setSp (w.sp + 4#32) with fp := v } i = t := by
  simp only [bbOp, bbRun, finish_eq_next, bind_eq_ok, pure_eq_ok, Except.ok.injEq, Prod.exists, pop32_eq_ok]
  constructor
  · rintro ⟨⟨⟩, hready, -, ⟨u, hu, w, hw, v, -, ⟨hv, rfl⟩, rfl⟩, rfl⟩
    exact ⟨hready, u, hu, w, hw, v, hv, rfl⟩
  · rintro ⟨hready, u, hu, w, hw, v, hv, rfl⟩
    exact ⟨(), hready, _, ⟨u, hu, w, hw, v, _, ⟨hv, rfl⟩, rfl⟩, rfl⟩

/-- After a push, and a loop that leaves PSR and the stack pointers alone, SP goes back to where it was. -/
theorem setSp_of_push32 {s u w : State} {v : Dword} (h : s.push32 v = .ok u) (hpsr : w.psr = u.psr) (h0 : w.sp0 = u.sp0)
    (h1 : w.sp1 = u.sp1) : w.setSp (w.sp + 4#32) = { w with sp0 := s.sp0, sp1 := s.sp1 } := by
  have hframe := (push32_spec h).1
  have hflag : w.flag .s = s.flag .s := by rw [State.flag, State.flag, hpsr, psr_push32 h]
  have hsp : w.sp + 4#32 = s.sp := by
    rw [sp_congr h0 h1 (by rw [State.flag, State.flag, hpsr]), sp_push32 h, BitVec.sub_add_cancel]
  have h0' : u.sp0 = if s.flag .s then s.sp0 else s.sp - 4#32 := by rw [hframe, ← sp0_setSp]
  have h1' : u.sp1 = if s.flag .s then s.sp - 4#32 else s.sp1 := by rw [hframe, ← sp1_setSp]
  rw [hsp, State.setSp, hflag, State.sp]
  split
  · next hs => rw [← (h0.trans h0').trans (if_pos hs)]
  · next hs => rw [← (h1.trans h1').trans (if_neg hs)]

/-! ### The frame of the loops -/

/-- What the series may change before its pointer FP is restored: R0, R1, FP, BBSTOD's mask, memory, the list that goes with it,
and the height in R3, which is at `height`. -/
def BbFrameAt (s : State) (height : Dword) (t : State) : Prop :=
  t = { s with regs := { s.regs with r0 := t.regs.r0, r1 := t.regs.r1, r3 := height }, fp := t.fp, bbMask := t.bbMask,
               mem := t.mem, unflushed := t.unflushed }

section
variable {s t u : State} {height : Dword} {fn : BbFn} {da inv : Bool}

theorem BbFrameAt.refl (s : State) : BbFrameAt s (s.reg .r3) s := rfl

theorem BbFrameAt.r3 (h : BbFrameAt s height t) : t.reg .r3 = height := by rw [h]; rfl

theorem BbFrameAt.keptRegs (h : BbFrameAt s height t) : KeptRegs s t [.r0, .r1, .r3] := by
  intro r hr
  rw [h]
  cases r with
  | r0 | r1 | r3 => simp at hr
  | r2 | r4 | r5 | r6 | r7 => rfl

theorem BbFrameAt.psr (h : BbFrameAt s height t) : t.psr = s.psr := by rw [h]

theorem BbFrameAt.flag (h : BbFrameAt s height t) (fl : Flag) : t.flag fl = s.flag fl := by rw [State.flag, h.psr, State.flag]

theorem BbFrameAt.stacks (h : BbFrameAt s height t) : KeptStacks s t := by rw [h]; exact ⟨rfl, rfl⟩

theorem BbFrameAt.sp (h : BbFrameAt s height t) : t.sp = s.sp := sp_congr h.stacks.1 h.stacks.2 (h.flag .s)

theorem BbFrameAt.setFp (h : BbFrameAt s height t) (v : Dword) : BbFrameAt s height { t with fp := v } := by
  rw [BbFrameAt] at h ⊢
  rw [h]

theorem BbFrameAt.move (h : BbFrameAt s height t) (step : Dword) : BbFrameAt s height (movePointers step t) := by
  rw [BbFrameAt] at h ⊢
  rw [h]
  rfl

theorem BbFrameAt.count (h : BbFrameAt s height t) : BbFrameAt s height t.countWord := h.setFp _

theorem BbFrameAt.endLine (h : BbFrameAt s height t) : BbFrameAt s (height - 1#32) (endLine t) := by
  rw [BbFrameAt] at h ⊢
  rw [h]
  rfl

theorem BbFrameAt.bbWord {pos : WordPos} (h : BbFrameAt s height t) (hu : bbWord fn inv pos t = .ok u) :
    BbFrameAt s height u := by
  have hspec := bbWord_spec hu
  rw [BbFrameAt] at h ⊢
  rw [hspec, h]

theorem BbFrameAt.bbInner {n : Nat} (h : BbFrameAt s height t) (hu : bbInner fn da inv n t = .ok u) :
    BbFrameAt s height u := by
  induction n generalizing t with
  | zero => cases hu; exact h
  | succ n ih =>
    rw [Machine.bbInner] at hu
    split at hu
    · cases hu; exact h
    · obtain ⟨v, hv, hu⟩ := bind_eq_ok.1 hu
      exact ih ((h.bbWord hv).move _).count hu

/-- A line counts one off the height. -/
theorem BbFrameAt.bbLine (h : BbFrameAt s height t) (hu : bbLine fn da inv t = .ok u) :
    BbFrameAt s (height - 1#32) u := by
  simp only [Machine.bbLine, bind_eq_ok] at hu
  obtain ⟨width, -, v, hv, hu⟩ := hu
  have hmoved := (((h.setFp _).bbWord hv).move (bbStep da)).count
  split at hu
  · cases hu
    exact hmoved.endLine
  · simp only [bind_eq_ok, pure_eq_ok, Except.ok.injEq] at hu
    obtain ⟨x, hx, y, hy, rfl⟩ := hu
    exact ((hmoved.bbInner hx).bbWord hy).endLine

/-- One less than a count that is not zero. -/
theorem ofNat_succ_sub_one (n : Nat) : BitVec.ofNat 32 (n + 1) - 1#32 = BitVec.ofNat 32 n := by
  rw [BitVec.ofNat_add, BitVec.add_sub_cancel]

/-- The lines count the height to zero. -/
theorem BbFrameAt.bbLines {n : Nat} (h : BbFrameAt s (BitVec.ofNat 32 n) t) (hu : bbLines fn da inv n t = .ok u) :
    BbFrameAt s 0#32 u := by
  induction n generalizing t with
  | zero => cases hu; exact h
  | succ n ih =>
    obtain ⟨v, hv, hu⟩ := bind_eq_ok.1 hu
    have hline := h.bbLine hv
    rw [ofNat_succ_sub_one] at hline
    split at hu
    · next hzero =>
      cases hu
      rwa [← hline.r3, hzero] at hline
    · exact ih hline hu

end

/-- A push changes nothing that the lines read but SP. -/
theorem reg_push32 {s u : State} {v : Dword} (h : s.push32 v = .ok u) (r : Reg) : u.reg r = s.reg r := by
  rw [(push32_spec h).1]
  exact reg_congr (regs_setSp s _) r

/-- The lines, done from where the push left off. -/
theorem bbLines_frame {fn : BbFn} {da inv : Bool} {u w : State} (h : bbLines fn da inv (u.reg .r3).toNat u = .ok w) :
    BbFrameAt u 0#32 w := by
  refine BbFrameAt.bbLines ?_ h
  rw [BitVec.ofNat_toNat, BitVec.setWidth_eq]
  exact .refl u

/-- The pointers restored after the lines. -/
theorem bbFrameAt_restore {s u w : State} {v : Dword} (i : Instr) (hpush : s.push32 s.fp = .ok u) (hw : BbFrameAt u 0#32 w) :
    BbFrameAt (s.advance i) 0#32 (State.advance { w.setSp (w.sp + 4#32) with fp := v } i) := by
  rw [setSp_of_push32 hpush hw.psr hw.stacks.1 hw.stacks.2]
  have hu := (push32_spec hpush).1
  rw [BbFrameAt] at hw ⊢
  rw [hw, hu]
  simp [State.advance, State.setPc]

/-- All an instruction of the series can do (R114, R118). -/
theorem bbOp_frame {i : Instr} {fn : BbFn} {da inv : Bool} {s t : State} (h : bbOp i fn da inv s = .next t) :
    BbFrameAt (s.advance i) 0#32 t := by
  obtain ⟨-, u, hu, w, hw, v, -, rfl⟩ := bbOp_eq_next.1 h
  exact bbFrameAt_restore i hu (bbLines_frame hw)

end Sys2Proof.Proofs
end

section
/-! PROOFS about the BB series (O49 and O50), second part: two runs side by side, and one word of the series as the word of a
rectangle. -/

namespace Sys2Proof.Proofs

open Sys2Proof.Machine Sys2Proof.Claims

/-! ### Two operations side by side -/

/-- Both operations stop, or both answer and their answers are related. -/
def BothAnswer {α β : Type} (R : α → β → Prop) : Res α → Res β → Prop
  | .ok a, .ok b => R a b
  | .error _, .error _ => True
  | .ok _, .error _ => False
  | .error _, .ok _ => False

section
variable {α β γ δ : Type} {R : α → β → Prop} {S : γ → δ → Prop} {x : Res α} {y : Res β}

theorem BothAnswer.of_left (h : BothAnswer R x y) {a : α} (hx : x = .ok a) : ∃ b, y = .ok b ∧ R a b := by
  subst hx
  cases y with
  | ok b => exact ⟨b, rfl, h⟩
  | error e => exact h.elim

theorem BothAnswer.of_right (h : BothAnswer R x y) {b : β} (hy : y = .ok b) : ∃ a, x = .ok a ∧ R a b := by
  subst hy
  cases x with
  | ok a => exact ⟨a, rfl, h⟩
  | error e => exact h.elim

/-- Two sequences, from two first parts side by side. -/
theorem BothAnswer.bind {f : α → Res γ} {g : β → Res δ} (h : BothAnswer R x y)
    (hfg : ∀ a b, x = .ok a → y = .ok b → R a b → BothAnswer S (f a) (g b)) : BothAnswer S (x >>= f) (y >>= g) := by
  cases x with
  | ok a =>
    obtain ⟨b, rfl, hab⟩ := h.of_left rfl
    exact hfg a b rfl rfl hab
  | error e =>
    cases y with
    | ok b => exact h.elim
    | error e' => trivial

/-- Two sequences with the same first part. -/
theorem bothAnswer_bind_same {f : α → Res γ} {g : α → Res δ} (x : Res α)
    (hfg : ∀ a, x = .ok a → BothAnswer S (f a) (g a)) : BothAnswer S (x >>= f) (x >>= g) := by
  cases x with
  | ok a => exact hfg a rfl
  | error e => trivial

/-- A weaker relation, that may use what the first operation answers. -/
theorem BothAnswer.imp {R' : α → β → Prop} (h : BothAnswer R x y) (hr : ∀ a b, x = .ok a → R a b → R' a b) :
    BothAnswer R' x y := by
  cases x with
  | ok a =>
    obtain ⟨b, rfl, hab⟩ := h.of_left rfl
    exact hr a b rfl hab
  | error e =>
    cases y with
    | ok b => exact h.elim
    | error e' => trivial

end

/-- Two folds over one list. -/
theorem bothAnswer_foldlM {ι : Type} {R : State → State → Prop} {f g : State → ι → Res State} (l : List ι)
    (hfg : ∀ x ∈ l, ∀ a b, R a b → BothAnswer R (f a x) (g b x)) {a b : State} (hab : R a b) :
    BothAnswer R (l.foldlM f a) (l.foldlM g b) := by
  induction l generalizing a b with
  | nil => exact hab
  | cons x l ih =>
    rw [List.foldlM_cons, List.foldlM_cons]
    refine (hfg x List.mem_cons_self a b hab).bind fun a' b' _ _ h => ?_
    exact ih (fun y hy => hfg y (List.mem_cons_of_mem x hy)) h

/-- What every step of a fold keeps. -/
theorem foldlM_keeps {ι : Type} {P : State → Prop} {f : State → ι → Res State} (l : List ι)
    (hf : ∀ x ∈ l, ∀ a b, P a → f a x = .ok b → P b) {a b : State} (ha : P a) (h : l.foldlM f a = .ok b) : P b := by
  induction l generalizing a with
  | nil => cases h; exact ha
  | cons x l ih =>
    rw [List.foldlM_cons] at h
    obtain ⟨c, hc, h⟩ := bind_eq_ok.1 h
    exact ih (fun y hy => hf y (List.mem_cons_of_mem x hy)) (hf x List.mem_cons_self a c ha hc) h

/-- What every word of a rectangle keeps. -/
theorem forRectangle_keeps {P : State → Prop} {h n : Nat} {word : Nat → Nat → State → Res State}
    (hword : ∀ j < h, ∀ k < n, ∀ a b, P a → word j k a = .ok b → P b) {s t : State} (hs : P s)
    (ht : forRectangle h n word s = .ok t) : P t :=
  foldlM_keeps _ (fun j hj _ _ ha hline => foldlM_keeps _
    (fun k hk => hword j (List.mem_range.1 hj) k (List.mem_range.1 hk)) ha hline) hs ht

/-- Two rectangles side by side. -/
theorem bothAnswer_forRectangle {R : State → State → Prop} {h n : Nat} {f g : Nat → Nat → State → Res State}
    (hfg : ∀ j < h, ∀ k < n, ∀ a b, R a b → BothAnswer R (f j k a) (g j k b)) {s t : State} (hst : R s t) :
    BothAnswer R (forRectangle h n f s) (forRectangle h n g t) :=
  bothAnswer_foldlM _ (fun j hj _ _ hab => bothAnswer_foldlM _
    (fun k hk => hfg j (List.mem_range.1 hj) k (List.mem_range.1 hk)) hab) hst

/-! ### Loads and stores of two states -/

/-- Two states with one memory. -/
def SameMemory (s t : State) : Prop := s.mem = t.mem ∧ s.unflushed = t.unflushed

/-- Two states whose bytes are the same but for the `n` bytes from `a` on. -/
def SameBut (a : Dword) (n : Nat) (s t : State) : Prop := KeptOutside t s a n

section
variable {s t : State} {a p : Dword} {n m : Nat} {v : Quad}

/-- Stores to one memory in two states. -/
theorem bothAnswer_store_sameMemory (h : SameMemory s t) :
    BothAnswer SameMemory (s.store n a v) (t.store n a v) := by
  obtain ⟨hmem, hlist⟩ := h
  cases ht : t.store n a v with
  | ok t' =>
    rw [store_congr ht hmem hlist]
    exact ⟨rfl, rfl⟩
  | error e =>
    cases hs : s.store n a v with
    | ok s' => rw [store_congr hs hmem.symm hlist.symm] at ht; cases ht
    | error e' => trivial

theorem load_of_sameBut (h : SameBut p m s t) (hd : Apart a n p m) : s.load n a = t.load n a :=
  load_congr_bytes n a fun k hlow hhigh => h k (not_inRange_of_apart hd ⟨hlow, hhigh⟩)

/-- The range of a store decides whether it answers. -/
theorem store_answers_congr (h : ∃ t', t.store n a v = .ok t') : ∃ s', s.store n a v = .ok s' := by
  obtain ⟨t', ht⟩ := h
  rcases Nat.eq_zero_or_pos n with rfl | hn
  · exact ⟨s, rfl⟩
  · obtain ⟨-, hfits, -⟩ := store_spec ht
    exact store_of_fits s v (hfits hn)

/-- The same bytes stored in both leave the rest as different as before. -/
theorem sameBut_store {s' t' : State} (h : SameBut p m s t) (hs : s.store n a v = .ok s') (ht : t.store n a v = .ok t') :
    SameBut p m s' t' := by
  intro k hk
  obtain ⟨-, -, houts, hbytes, -⟩ := store_spec hs
  obtain ⟨-, -, houtt, hbytet, -⟩ := store_spec ht
  by_cases hin : InRange k a n
  · obtain ⟨hlow, hhigh⟩ := hin
    obtain ⟨j, rfl⟩ := Nat.exists_eq_add_of_le hlow
    rw [hbytes j (by omega), hbytet j (by omega)]
  · rw [houts k hin, houtt k hin, h k hk]

theorem bothAnswer_store_sameBut (h : SameBut p m s t) :
    BothAnswer (SameBut p m) (s.store n a v) (t.store n a v) := by
  cases hs : s.store n a v with
  | ok s' =>
    obtain ⟨t', ht⟩ := store_answers_congr (s := t) ⟨s', hs⟩
    rw [ht]
    exact sameBut_store h hs ht
  | error e =>
    cases ht : t.store n a v with
    | ok t' =>
      obtain ⟨s', hs'⟩ := store_answers_congr (s := s) ⟨t', ht⟩
      rw [hs] at hs'
      cases hs'
    | error e' => trivial

end

/-! ### One word of a rectangle -/

section
variable {fn : BbFn} {inv : Bool} {sh : Nat} {m src dst p : Dword} {n : Nat} {s t u : State}

theorem bbBytes_le (fn : BbFn) (sh : Nat) : bbBytes fn sh ≤ 4 := by
  unfold bbBytes
  split <;> decide

/-- A word of a rectangle changes its destination's bytes only. -/
theorem keptOutside_bbStepAt (h : bbStepAt fn inv sh m src dst s = .ok t) : KeptOutside s t dst (bbBytes fn sh) := by
  simp only [bbStepAt, bind_eq_ok] at h
  obtain ⟨w, -, d, -, h⟩ := h
  obtain ⟨-, -, hkeep, -⟩ := store_spec h
  exact hkeep

/-- A word of a rectangle reads and writes clear of where two memories differ. -/
theorem bothAnswer_bbStepAt (h : SameBut p n s t) (hsrc : Apart src 2 p n) (hdst : Apart dst (bbBytes fn sh) p n) :
    BothAnswer (SameBut p n) (bbStepAt fn inv sh m src dst s) (bbStepAt fn inv sh m src dst t) := by
  have hload : s.load16 src = t.load16 src := by rw [State.load16, load_of_sameBut h hsrc, State.load16]
  rw [bbStepAt, bbStepAt, hload, load_of_sameBut h hdst]
  exact bothAnswer_bind_same _ fun w _ => bothAnswer_bind_same _ fun d _ => bothAnswer_store_sameBut h

/-! ### A word of the series is one of a rectangle -/

/-- The mask of a word at a position, as `bbValue` takes it: for an inner word the one that changes nothing. -/
def posMask (fn : BbFn) (pos : WordPos) (s : State) : Dword :=
  match pos with
  | .first => s.reg .r4
  | .inner => if fn = .and then 0#32 else 0xFFFF#32
  | .last => s.reg .r5

theorem extend_low {x : Dword} (h : x.toNat < 2 ^ 16) : (x.setWidth 16).setWidth 32 = x := by
  apply BitVec.eq_of_toNat_eq
  simp only [BitVec.toNat_setWidth]
  omega

theorem extend_and_ones (w : Word16) : w.setWidth 32 &&& 0xFFFF#32 = w.setWidth 32 := by
  apply BitVec.eq_of_toNat_eq
  have := w.isLt
  rw [BitVec.toNat_and, BitVec.toNat_setWidth, BitVec.toNat_ofNat]
  change _ &&& (2 ^ 16 - 1) = _
  rw [Nat.and_two_pow_sub_one_eq_mod]
  omega

/-- The inner mask of BBSTOD is the complement of a mask of ones below it. -/
theorem rotate_not_ones {k : Nat} (h : k ≤ 15) : (0xFFFF0000#32).rotateLeft k = ~~~(0xFFFF#32).rotateLeft k := by
  interval_cases k <;> rfl

/-- What the series makes of a destination (R115). -/
theorem bbCombine_eq {pos : WordPos} (w : Word16) (d : Dword) (h15 : s.shiftValue ≤ 15) (h4 : (s.reg .r4).toNat < 2 ^ 16)
    (h5 : (s.reg .r5).toNat < 2 ^ 16) :
    bbCombine fn pos w d s = bbValue fn s.shiftValue (posMask fn pos s) (w.setWidth 32) d := by
  cases pos with
  | first => cases fn <;>
      simp only [bbCombine, shiftedSource, rotatedSource, internalMask, lineMask, posMask, bbValue, extend_low h4]
  | last => cases fn <;>
      simp only [bbCombine, shiftedSource, rotatedSource, internalMask, lineMask, posMask, bbValue, extend_low h5]
  | inner => cases fn <;>
      simp only [bbCombine, shiftedSource, rotatedSource, internalMask, lineMask, posMask, bbValue, extend_and_ones,
        rotate_not_ones h15, BitVec.or_zero, reduceCtorEq, if_false, if_true]

/-- A two-byte store sees only the low word of its value. -/
theorem store_word (s : State) (a : Dword) (v : Dword) :
    s.store 2 a ((v.setWidth 16).setWidth 64) = s.store 2 a (v.setWidth 64) := by
  have hlow : ((v.setWidth 16).setWidth 64).setWidth 8 = (v.setWidth 64).setWidth 8 := by
    apply BitVec.eq_of_toNat_eq
    simp only [BitVec.toNat_setWidth]
    omega
  have hhigh : (((v.setWidth 16).setWidth 64) >>> 8).setWidth 8 = ((v.setWidth 64) >>> 8).setWidth 8 := by
    apply BitVec.eq_of_toNat_eq
    simp only [BitVec.toNat_setWidth, BitVec.toNat_ushiftRight, Nat.shiftRight_eq_div_pow]
    omega
  simp only [State.store, hlow, hhigh]

/-- A two-byte load is a word already. -/
theorem load_word {s : State} {a : Dword} {v : Quad} (h : s.load 2 a = .ok v) :
    (v.setWidth 16).setWidth 32 = v.setWidth 32 := by
  apply BitVec.eq_of_getLsbD_eq
  intro i hi
  rw [BitVec.getLsbD_setWidth, BitVec.getLsbD_setWidth, BitVec.getLsbD_setWidth]
  by_cases h16 : i < 16
  · simp [h16]
  · simp [h16, load_high h (show 8 * 2 ≤ i by omega)]

/-- What the series reads of a destination and writes there, whatever its width (R121). -/
theorem bbWord_eq {pos : WordPos} (hsh : sh = s.shiftValue) (h15 : sh ≤ 15) (hl : s.flag .l = decide (sh ≠ 0))
    (h4 : (s.reg .r4).toNat < 2 ^ 16) (h5 : (s.reg .r5).toNat < 2 ^ 16) :
    bbWord fn inv pos s = (s.load16 (s.reg .r0) >>= fun w => s.load (bbBytes fn sh) (s.reg .r1) >>= fun d =>
      (if bbBytes fn sh = 2 then s else keepMask fn pos s).store (bbBytes fn sh) (s.reg .r1)
        ((bbValue fn sh (posMask fn pos s) ((if inv then ~~~w else w).setWidth 32) (d.setWidth 32)).setWidth 64)) := by
  subst hsh
  have hcombine := fun w d => bbCombine_eq (fn := fn) (pos := pos) w d h15 h4 h5
  simp only [bbWord, bbSource]
  cases s.load16 (s.reg .r0) with
  | error e => rfl
  | ok w =>
    simp only [ok_bind, pure_eq_ok]
    by_cases hshort : fn = .fastOr ∧ s.shiftValue = 0
    · obtain ⟨rfl, hzero⟩ := hshort
      have hbytes : bbBytes .fastOr s.shiftValue = 2 := if_pos ⟨rfl, hzero⟩
      rw [if_pos ⟨rfl, by simp [hl, hzero]⟩, hbytes, State.load16]
      cases hd : s.load 2 (s.reg .r1) with
      | error e => rfl
      | ok d =>
        simp only [ok_bind, pure_eq_ok, State.store16, store_word, hcombine, load_word hd, if_true]
    · have hbytes : bbBytes fn s.shiftValue = 4 := if_neg hshort
      rw [if_neg (by simpa [hl] using hshort), hbytes, State.load32]
      cases s.load 4 (s.reg .r1) with
      | error e => rfl
      | ok d => simp only [ok_bind, pure_eq_ok, State.store32, hcombine]; rfl

theorem keepMask_frame (fn : BbFn) (pos : WordPos) (s : State) :
    keepMask fn pos s = { s with bbMask := (keepMask fn pos s).bbMask } := by
  unfold keepMask
  split <;> rfl

/-- One word of the series does to memory what the word of a rectangle does, and changes nothing but memory and BBSTOD's
mask. -/
theorem bothAnswer_bbWord {pos : WordPos} (hsh : sh = s.shiftValue) (h15 : sh ≤ 15) (hl : s.flag .l = decide (sh ≠ 0))
    (h4 : (s.reg .r4).toNat < 2 ^ 16) (h5 : (s.reg .r5).toNat < 2 ^ 16) (h : SameMemory s t) :
    BothAnswer SameMemory (bbWord fn inv pos s)
      (bbStepAt fn inv sh (posMask fn pos s) (s.reg .r0) (s.reg .r1) t) := by
  rw [bbWord_eq hsh h15 hl h4 h5, bbStepAt, load16_congr h.1]
  refine bothAnswer_bind_same _ fun w _ => ?_
  rw [load_congr h.1]
  refine bothAnswer_bind_same _ fun d _ => ?_
  refine bothAnswer_store_sameMemory ?_
  split
  · exact h
  · rw [keepMask_frame]
    exact h

end

end Sys2Proof.Proofs
end

section
/-! PROOFS about the BB series (O49 and O50), third part: its lines as the lines of a rectangle. -/

namespace Sys2Proof.Proofs

open Sys2Proof.Machine Sys2Proof.Claims

/-! ### The addresses of a rectangle -/

/-- How often the pointers move in a line of `n` words (R114; D36 for a line of one word). -/
def lineMoves (n : Nat) : Nat := if n = 1 then 1 else n - 1

/-- The source address of word `k` of line `j`. -/
def bbSrc (da : Bool) (n : Nat) (s : State) (j k : Nat) : Dword :=
  s.reg .r0 + wordOffset (lineMoves n) (bbStep da) (s.reg .r6) j k

/-- The destination address of word `k` of line `j`. -/
def bbDst (da : Bool) (n : Nat) (s : State) (j k : Nat) : Dword :=
  s.reg .r1 + wordOffset (lineMoves n) (bbStep da) (s.reg .r7) j k

/-- Word `k` of line `j` of the rectangle that an instruction of the series does from a state. -/
def bbRectWord (fn : BbFn) (da inv : Bool) (sh n : Nat) (s : State) (j k : Nat) : State → Res State :=
  bbStepAt fn inv sh (bbMaskAt fn n k s) (bbSrc da n s j k) (bbDst da n s j k)

theorem wordOffset_zero (moves : Nat) (step warp : Dword) : wordOffset moves step warp 0 0 = 0#32 := by
  simp [wordOffset]

/-- The next word of a line lies a step further. -/
theorem wordOffset_succ (moves : Nat) (step warp : Dword) (j k : Nat) :
    wordOffset moves step warp j k + step = wordOffset moves step warp j (k + 1) := by
  rw [wordOffset, wordOffset, BitVec.ofNat_add, BitVec.add_mul, BitVec.one_mul, BitVec.add_assoc]

/-- The next line begins a warp further than the pointer has come. -/
theorem wordOffset_line (moves : Nat) (step warp : Dword) (j : Nat) :
    wordOffset moves step warp j moves + warp = wordOffset moves step warp (j + 1) 0 := by
  rw [wordOffset, wordOffset, BitVec.ofNat_add, BitVec.add_mul, BitVec.one_mul, BitVec.zero_mul, BitVec.add_zero,
    BitVec.add_assoc]

section
variable {s u : State} {da : Bool} {n j k : Nat}

theorem bbSrc_zero (da : Bool) (n : Nat) (s : State) : bbSrc da n s 0 0 = s.reg .r0 := by
  rw [bbSrc, wordOffset_zero, BitVec.add_zero]

theorem bbDst_zero (da : Bool) (n : Nat) (s : State) : bbDst da n s 0 0 = s.reg .r1 := by
  rw [bbDst, wordOffset_zero, BitVec.add_zero]

theorem bbSrc_succ : bbSrc da n s j k + bbStep da = bbSrc da n s j (k + 1) := by
  rw [bbSrc, BitVec.add_assoc, wordOffset_succ, bbSrc]

theorem bbDst_succ : bbDst da n s j k + bbStep da = bbDst da n s j (k + 1) := by
  rw [bbDst, BitVec.add_assoc, wordOffset_succ, bbDst]

theorem bbSrc_line (hk : k = lineMoves n) : bbSrc da n s j k + s.reg .r6 = bbSrc da n s (j + 1) 0 := by
  rw [hk, bbSrc, BitVec.add_assoc, wordOffset_line, bbSrc]

theorem bbDst_line (hk : k = lineMoves n) : bbDst da n s j k + s.reg .r7 = bbDst da n s (j + 1) 0 := by
  rw [hk, bbDst, BitVec.add_assoc, wordOffset_line, bbDst]

theorem bbSrc_congr (h : ∀ r, u.reg r = s.reg r) : bbSrc da n u = bbSrc da n s := by
  funext j k
  simp only [bbSrc, h]

theorem bbDst_congr (h : ∀ r, u.reg r = s.reg r) : bbDst da n u = bbDst da n s := by
  funext j k
  simp only [bbDst, h]

/-- States with the same registers do the same rectangle. -/
theorem bbRectWord_congr (h : ∀ r, u.reg r = s.reg r) (fn : BbFn) (inv : Bool) (sh : Nat) :
    bbRectWord fn da inv sh n u = bbRectWord fn da inv sh n s := by
  funext j k
  simp only [bbRectWord, bbSrc_congr h, bbDst_congr h, bbMaskAt, h]

end

theorem bbMaskAt_first (fn : BbFn) (n : Nat) (s : State) : bbMaskAt fn n 0 s = posMask fn .first s := rfl

theorem bbMaskAt_last (fn : BbFn) {n k : Nat} (s : State) (h0 : k ≠ 0) (hn : k + 1 = n) :
    bbMaskAt fn n k s = posMask fn .last s := by
  rw [bbMaskAt, if_neg h0, if_pos hn, posMask]

theorem bbMaskAt_inner (fn : BbFn) {n k : Nat} (s : State) (h0 : k ≠ 0) (hn : k + 1 ≠ n) :
    bbMaskAt fn n k s = posMask fn .inner s := by
  rw [bbMaskAt, if_neg h0, if_neg hn, posMask]

/-! ### The preconditions on registers and flags -/

/-- What the words of the series want of shift, L and masks (R112). -/
structure BbMasks (sh : Nat) (s : State) : Prop where
  shift : sh = s.shiftValue
  small : sh ≤ 15
  l : s.flag .l = decide (sh ≠ 0)
  r4 : (s.reg .r4).toNat < 2 ^ 16
  r5 : (s.reg .r5).toNat < 2 ^ 16

theorem BbMasks.congr {sh : Nat} {s t : State} (h : BbMasks sh s) (h2 : t.reg .r2 = s.reg .r2) (h4 : t.reg .r4 = s.reg .r4)
    (h5 : t.reg .r5 = s.reg .r5) (hl : t.flag .l = s.flag .l) : BbMasks sh t where
  shift := by rw [State.shiftValue, h2]; exact h.shift
  small := h.small
  l := hl.trans h.l
  r4 := h4 ▸ h.r4
  r5 := h5 ▸ h.r5

/-! ### A run of the series beside a run over the rectangle -/

/-- The series, from `s` on, has come to these two addresses with this height left, and to the memory of `u`. -/
structure BbAt (s : State) (src dst height : Dword) (t u : State) : Prop where
  frame : BbFrameAt s height t
  memory : SameMemory t u
  r0 : t.reg .r0 = src
  r1 : t.reg .r1 = dst

section
variable {fn : BbFn} {da inv : Bool} {sh n : Nat} {s t u : State} {src dst height : Dword}

theorem BbAt.setFp (h : BbAt s src dst height t u) (v : Dword) : BbAt s src dst height { t with fp := v } u :=
  ⟨h.frame.setFp v, h.memory, h.r0, h.r1⟩

theorem BbAt.count (h : BbAt s src dst height t u) : BbAt s src dst height t.countWord u := h.setFp _

theorem BbAt.move (h : BbAt s src dst height t u) (step : Dword) :
    BbAt s (src + step) (dst + step) height (movePointers step t) u where
  frame := h.frame.move step
  memory := h.memory
  r0 := by rw [← h.r0]; rfl
  r1 := by rw [← h.r1]; rfl

theorem BbAt.endLine (h : BbAt s src dst height t u) :
    BbAt s (src + s.reg .r6) (dst + s.reg .r7) (height - 1#32) (endLine t) u where
  frame := h.frame.endLine
  memory := h.memory
  r0 := by rw [← h.r0, ← h.frame.keptRegs .r6 (by decide)]; rfl
  r1 := by rw [← h.r1, ← h.frame.keptRegs .r7 (by decide)]; rfl

/-- One word; the current width in FP stays. -/
theorem BbAt.word (hm : BbMasks sh s) (h : BbAt s src dst height t u) (pos : WordPos) :
    BothAnswer (fun t' u' => BbAt s src dst height t' u' ∧ t'.fp = t.fp) (bbWord fn inv pos t)
      (bbStepAt fn inv sh (posMask fn pos s) src dst u) := by
  have hkeep := h.frame.keptRegs
  have hm' := hm.congr (hkeep .r2 (by decide)) (hkeep .r4 (by decide)) (hkeep .r5 (by decide)) (h.frame.flag .l)
  have hmask : posMask fn pos s = posMask fn pos t := by
    cases pos with
    | first => exact (hkeep .r4 (by decide)).symm
    | inner => rfl
    | last => exact (hkeep .r5 (by decide)).symm
  obtain ⟨hframe, hmemory, rfl, rfl⟩ := h
  rw [hmask]
  refine (bothAnswer_bbWord hm'.shift hm'.small hm'.l hm'.r4 hm'.r5 hmemory).imp fun t' u' hw hsame => ?_
  have hregs : t'.regs = t.regs := by rw [bbWord_spec hw]
  exact ⟨⟨hframe.bbWord hw, hsame, reg_congr hregs .r0, reg_congr hregs .r1⟩, by rw [bbWord_spec hw]⟩

/-- The words of a line between its first and its last: `m` of them, from word `k` on. -/
theorem BbAt.inner (hm : BbMasks sh s) {j k m fuel : Nat} (hk : 0 < k) (hn : k + m + 1 = n) (hfuel : m ≤ fuel)
    (hfp : t.fp = BitVec.ofNat 32 (m + 1)) (hsmall : m + 1 < 2 ^ 32)
    (h : BbAt s (bbSrc da n s j k) (bbDst da n s j k) height t u) :
    BothAnswer (BbAt s (bbSrc da n s j (k + m)) (bbDst da n s j (k + m)) height) (bbInner fn da inv fuel t)
      ((List.range' k m).foldlM (fun u k => bbRectWord fn da inv sh n s j k u) u) := by
  induction m generalizing k fuel t u with
  | zero =>
    have hstop : bbInner fn da inv fuel t = .ok t := by
      cases fuel with
      | zero => rfl
      | succ fuel => rw [bbInner, if_pos hfp]
    rw [hstop]
    exact h
  | succ m ih =>
    obtain ⟨fuel, rfl⟩ : ∃ f, fuel = f + 1 := ⟨fuel - 1, by omega⟩
    have hgo : t.fp ≠ 1#32 := by
      intro hone
      rw [hone] at hfp
      have := congrArg BitVec.toNat hfp
      simp only [BitVec.toNat_ofNat] at this
      omega
    rw [bbInner, if_neg hgo, List.range'_succ, List.foldlM_cons, bbRectWord, bbMaskAt_inner fn s (by omega) (by omega)]
    refine (h.word hm .inner).bind fun t' u' _ _ hword => ?_
    obtain ⟨hat, hfp'⟩ := hword
    have hnext := (hat.move (bbStep da)).count
    rw [bbSrc_succ, bbDst_succ] at hnext
    have hcount : (movePointers (bbStep da) t').countWord.fp = BitVec.ofNat 32 (m + 1) := by
      rw [← ofNat_succ_sub_one, ← hfp, ← hfp']
      rfl
    rw [show k + (m + 1) = k + 1 + m by omega]
    exact ih (by omega) (by omega) (by omega) hcount (by omega) hnext

/-- One line (R114, R117). -/
theorem BbAt.line (hm : BbMasks sh s) {width : Word16} (hn : n = width.toNat) (hn0 : n ≠ 0)
    (hwidth : u.load16 (s.sp + 4#32) = .ok width) {j : Nat}
    (h : BbAt s (bbSrc da n s j 0) (bbDst da n s j 0) height t u) :
    BothAnswer (BbAt s (bbSrc da n s (j + 1) 0) (bbDst da n s (j + 1) 0) (height - 1#32)) (bbLine fn da inv t)
      ((List.range n).foldlM (fun u k => bbRectWord fn da inv sh n s j k u) u) := by
  obtain ⟨m, rfl⟩ : ∃ m, n = m + 1 := ⟨n - 1, by omega⟩
  have hfp : width.setWidth 32 = BitVec.ofNat 32 (m + 1) := by
    rw [hn, BitVec.ofNat_toNat]
  have hm16 : m + 1 < 2 ^ 16 := hn ▸ width.isLt
  rw [bbLine, h.frame.sp, load16_congr h.memory.1, hwidth, ok_bind, List.range_eq_range', List.range'_succ, List.foldlM_cons,
    bbRectWord, bbMaskAt_first]
  refine ((h.setFp _).word hm .first).bind fun t1 u1 _ _ hfirst => ?_
  obtain ⟨hat, hfp1⟩ := hfirst
  have hmoved := (hat.move (bbStep da)).count
  rw [bbSrc_succ, bbDst_succ] at hmoved
  have hcount : (movePointers (bbStep da) t1).countWord.fp = BitVec.ofNat 32 m := by
    rw [← ofNat_succ_sub_one, ← hfp, ← show t1.fp = width.setWidth 32 from hfp1]
    rfl
  cases m with
  | zero =>
    have hend := hmoved.endLine
    have hmoves : 0 + 1 = lineMoves (0 + 1) := rfl
    rw [bbSrc_line hmoves, bbDst_line hmoves] at hend
    rw [if_pos hcount]
    exact hend
  | succ m =>
    have hne : (movePointers (bbStep da) t1).countWord.fp ≠ 0#32 := by
      intro hzero
      rw [hzero] at hcount
      have := congrArg BitVec.toNat hcount
      simp only [BitVec.toNat_ofNat] at this
      omega
    have hfuel : (movePointers (bbStep da) t1).countWord.fp.toNat = m + 1 := by
      rw [hcount, BitVec.toNat_ofNat]
      omega
    rw [if_neg hne, hfuel, List.range'_concat, List.foldlM_append]
    refine (hmoved.inner hm (by omega) (by omega) (by omega) hcount (by omega)).bind fun t2 u2 _ _ h2 => ?_
    rw [List.foldlM_cons, bbRectWord, bbMaskAt_last fn s (by omega) (by omega)]
    simp only [Nat.one_mul, Nat.zero_add]
    refine (h2.word hm .last).bind fun t3 u3 _ _ h3 => ?_
    have hend := h3.1.endLine
    have hmoves : 1 + m = lineMoves (m + 1 + 1) := by simp [lineMoves, Nat.add_comm]
    rw [bbSrc_line hmoves, bbDst_line hmoves] at hend
    exact hend

/-- A word in memory survives a line whose words keep it. -/
theorem load16_line {word : Nat → State → Res State} {a : Dword} {u' : State}
    (hword : ∀ k < n, ∀ x y, word k x = .ok y → y.load16 a = x.load16 a)
    (h : (List.range n).foldlM (fun u k => word k u) u = .ok u') : u'.load16 a = u.load16 a :=
  foldlM_keeps (P := fun x => x.load16 a = u.load16 a) _
    (fun k hk x y hx hy => (hword k (List.mem_range.1 hk) x y hy).trans hx) rfl h

/-- All lines (R114), when no line but the last covers the width at SP. -/
theorem BbAt.lines (hm : BbMasks sh s) {width : Word16} (hn : n = width.toNat) (hn0 : n ≠ 0) {j m h : Nat}
    (hwidth : u.load16 (s.sp + 4#32) = .ok width) (hj : j + m = h) (hsmall : m < 2 ^ 32)
    (hclear : ∀ j, j + 1 < h → ∀ k < n, Apart (bbDst da n s j k) (bbBytes fn sh) (s.sp + 4#32) 2)
    (hat : BbAt s (bbSrc da n s j 0) (bbDst da n s j 0) (BitVec.ofNat 32 m) t u) :
    BothAnswer (BbAt s (bbSrc da n s h 0) (bbDst da n s h 0) 0#32) (bbLines fn da inv m t)
      ((List.range' j m).foldlM
        (fun u j => (List.range n).foldlM (fun u k => bbRectWord fn da inv sh n s j k u) u) u) := by
  induction m generalizing j t u with
  | zero =>
    obtain rfl : j = h := hj
    exact hat
  | succ m ih =>
    rw [bbLines, List.range'_succ, List.foldlM_cons]
    refine (hat.line hm hn hn0 hwidth).bind fun t' u' _ hu hline => ?_
    rw [ofNat_succ_sub_one] at hline
    cases m with
    | zero =>
      obtain rfl : j + 1 = h := hj
      rw [if_pos hline.frame.r3]
      exact hline
    | succ m =>
      have hgo : t'.reg .r3 ≠ 0#32 := by
        rw [hline.frame.r3]
        intro hzero
        have := congrArg BitVec.toNat hzero
        simp only [BitVec.toNat_ofNat] at this
        omega
      rw [if_neg hgo]
      refine ih ?_ (by omega) (by omega) hline
      rw [← hwidth]
      refine load16_line (fun k hk x y hxy => load16_congr_bytes _ fun a hlow hhigh => ?_) hu
      exact keptOutside_bbStepAt hxy a fun hin =>
        not_inRange_of_apart (hclear j (by omega) k hk) hin ⟨hlow, hhigh⟩

/-- The lines from a state on are the rectangle of that state. -/
theorem bothAnswer_bbLines (hm : BbMasks sh s) {width : Word16} (hwidth : s.load16 (s.sp + 4#32) = .ok width)
    (hn : n = width.toNat) (hn0 : n ≠ 0)
    (hclear : ∀ j, j + 1 < (s.reg .r3).toNat → ∀ k < n, Apart (bbDst da n s j k) (bbBytes fn sh) (s.sp + 4#32) 2) :
    BothAnswer (BbAt s (bbSrc da n s (s.reg .r3).toNat 0) (bbDst da n s (s.reg .r3).toNat 0) 0#32)
      (bbLines fn da inv (s.reg .r3).toNat s)
      (forRectangle (s.reg .r3).toNat n (bbRectWord fn da inv sh n s) s) := by
  rw [forRectangle, List.range_eq_range' (n := (s.reg .r3).toNat)]
  refine BbAt.lines hm hn hn0 hwidth (Nat.zero_add _) (s.reg .r3).isLt hclear ⟨?_, ⟨rfl, rfl⟩, ?_, ?_⟩
  · rw [BitVec.ofNat_toNat, BitVec.setWidth_eq]
    exact .refl s
  · exact (bbSrc_zero da n s).symm
  · exact (bbDst_zero da n s).symm

end

end Sys2Proof.Proofs
end

section
/-! PROOFS about the BB series (O49 and O50), fourth part: the instructions, from the rectangle of the state they begin in. -/

namespace Sys2Proof.Proofs

open Sys2Proof.Machine Sys2Proof.Claims

/-! ### The preconditions -/

/-- A register has no bit above 15 (R112 item 3). -/
theorem high_eq_zero_iff {x : Dword} : x.extractLsb' 16 16 = 0#16 ↔ x.toNat < 2 ^ 16 := by
  have hlt := x.isLt
  rw [← BitVec.toNat_inj, BitVec.extractLsb'_toNat, Nat.shiftRight_eq_div_pow, BitVec.toNat_ofNat]
  omega

/-- What the series wants before it starts, in the terms of the words (R112, R116, R128). -/
theorem bbReady_iff {s : State} : bbReady s = .ok () ↔
    BbMasks s.shiftValue s ∧ s.flag .j = false ∧ s.flag .k = false ∧ s.reg .r3 ≠ 0#32 ∧
      ∃ w, s.load16 s.sp = .ok w ∧ w ≠ 0#16 := by
  rw [bbReady_eq_ok, high_eq_zero_iff, high_eq_zero_iff]
  constructor
  · rintro ⟨hsmall, hl, h4, h5, hrest⟩
    exact ⟨⟨rfl, hsmall, hl, h4, h5⟩, hrest⟩
  · rintro ⟨hm, hrest⟩
    exact ⟨hm.small, hm.l, hm.r4, hm.r5, hrest⟩

theorem toNat_ne_zero {w : Word16} : w.toNat ≠ 0 ↔ w ≠ 0#16 := by
  simp [← BitVec.toNat_inj]

/-! ### After the push -/

section
variable {s u : State} {v : Dword}

theorem flag_push32 (h : s.push32 v = .ok u) (fl : Flag) : u.flag fl = s.flag fl := by
  rw [State.flag, psr_push32 h, State.flag]

theorem sameBut_push32 (h : s.push32 v = .ok u) : SameBut (s.sp - 4#32) 4 u s := by
  obtain ⟨-, -, -, hkeep, -⟩ := push32_spec h
  exact hkeep

theorem load32_push32 (h : s.push32 v = .ok u) : u.load32 (s.sp - 4#32) = .ok v := by
  obtain ⟨-, -, hload, -⟩ := push32_spec h
  exact hload

theorem sp_push32_add (h : s.push32 v = .ok u) : u.sp + 4#32 = s.sp := by rw [sp_push32 h, BitVec.sub_add_cancel]

theorem BbMasks.push32 {sh : Nat} (hm : BbMasks sh s) (h : s.push32 v = .ok u) : BbMasks sh u :=
  hm.congr (reg_push32 h .r2) (reg_push32 h .r4) (reg_push32 h .r5) (flag_push32 h .l)

/-- A push that completes has four bytes below SP, which do not wrap. -/
theorem toNat_sp_of_push32 (h : s.push32 v = .ok u) : s.sp.toNat = (s.sp - 4#32).toNat + 4 := by
  obtain ⟨-, hfits, -⟩ := push32_spec h
  bv_omega

/-- The width at SP is above what the push writes. -/
theorem load16_push32 (h : s.push32 v = .ok u) : u.load16 (u.sp + 4#32) = s.load16 s.sp := by
  have hsp := toNat_sp_of_push32 h
  rw [sp_push32_add h, State.load16, load_of_sameBut (sameBut_push32 h) (.inr (by omega)), State.load16]

/-- A push completes where SP is not below 4 and the width at SP can be read. -/
theorem push32_of_width {width : Word16} (v : Dword) (hsp : 4 ≤ s.sp.toNat) (hwidth : s.load16 s.sp = .ok width) :
    ∃ u, s.push32 v = .ok u := by
  obtain ⟨w, hw, -⟩ := load16_eq_ok.1 hwidth
  have hfits := fits_of_load hw (by decide)
  refine push32_of_fits s v ?_
  bv_omega

end

/-! ### What the series leaves unchanged -/

/-- A rectangle changes the bytes of its destinations only. -/
theorem forRectangle_keptOutside {fn : BbFn} {da inv : Bool} {sh h n : Nat} {s u v : State} {a : Nat}
    (ha : ∀ j < h, ∀ k < n, ¬InRange a (bbDst da n s j k) (bbBytes fn sh))
    (hv : forRectangle h n (bbRectWord fn da inv sh n s) u = .ok v) : Memory.read v.mem a = Memory.read u.mem a :=
  forRectangle_keeps (P := fun x => Memory.read x.mem a = Memory.read u.mem a)
    (fun j hj k hk _ _ hx hy => (keptOutside_bbStepAt hy a (ha j hj k hk)).trans hx) rfl hv

/-- A rectangle reads and writes clear of where two memories differ. -/
theorem bothAnswer_bbRectangle {fn : BbFn} {da inv : Bool} {sh h n m : Nat} {s u v : State} {p : Dword}
    (hapart : ∀ j < h, ∀ k < n, Apart (bbSrc da n s j k) 2 p m ∧ Apart (bbDst da n s j k) (bbBytes fn sh) p m)
    (huv : SameBut p m u v) : BothAnswer (SameBut p m) (forRectangle h n (bbRectWord fn da inv sh n s) u)
      (forRectangle h n (bbRectWord fn da inv sh n s) v) := by
  refine bothAnswer_forRectangle (fun j hj k hk a b hab => ?_) huv
  obtain ⟨hsrc, hdst⟩ := hapart j hj k hk
  exact bothAnswer_bbStepAt hab hsrc hdst

/-- An instruction of the series that completes, clear of the width at SP, changes only the bytes of its destinations and the
four below SP. -/
theorem bbOp_keptOutside {i : Instr} {fn : BbFn} {da inv : Bool} {n : Nat} {s t : State} {width : Word16}
    (h : bbOp i fn da inv s = .next t) (hwidth : s.load16 s.sp = .ok width) (hn : n = width.toNat)
    (hclear : ∀ j < (s.reg .r3).toNat, ∀ k < n, Apart (bbDst da n s j k) (bbBytes fn s.shiftValue) s.sp 2) {a : Nat}
    (ha : ∀ j < (s.reg .r3).toNat, ∀ k < n, ¬InRange a (bbDst da n s j k) (bbBytes fn s.shiftValue))
    (hsp : ¬InRange a (s.sp - 4#32) 4) : Memory.read t.mem a = Memory.read s.mem a := by
  obtain ⟨hready, u, hu, w, hw, v, -, rfl⟩ := bbOp_eq_next.1 h
  obtain ⟨hm, -, -, -, w', hw', hne⟩ := bbReady_iff.1 hready
  obtain rfl : width = w' := by rw [hwidth] at hw'; exact Except.ok.inj hw'
  have hreg := reg_push32 hu
  have hdst : bbDst da n u = bbDst da n s := bbDst_congr hreg
  have hlines := bothAnswer_bbLines (fn := fn) (da := da) (inv := inv) (hm.push32 hu) ((load16_push32 hu).trans hwidth) hn
    (hn ▸ toNat_ne_zero.2 hne) (by rw [hreg, hdst, sp_push32_add hu]; exact fun j hj => hclear j (by omega))
  obtain ⟨x, hx, hat⟩ := hlines.of_left hw
  calc Memory.read (State.advance _ i).mem a = Memory.read w.mem a := by simp
    _ = Memory.read x.mem a := by rw [hat.memory.1]
    _ = Memory.read u.mem a := forRectangle_keptOutside (by rw [hreg, hdst]; exact ha) hx
    _ = Memory.read s.mem a := sameBut_push32 hu a hsp

theorem inRange_mono {k : Nat} {a : Dword} {m n : Nat} (h : InRange k a m) (hmn : m ≤ n) : InRange k a n := by
  obtain ⟨hlow, hhigh⟩ := h
  exact ⟨hlow, by omega⟩

theorem apart_mono {a b : Dword} {m n p : Nat} (h : Apart a n b p) (hmn : m ≤ n) : Apart a m b p := by
  unfold Apart at h ⊢
  omega

/-- What an instruction of the series leaves of registers and flags (R114, R118). -/
theorem keeps_of_bbFrameAt {i : Instr} {s t : State} (hsize : i.size = 3) (h : BbFrameAt (s.advance i) 0#32 t) :
    t.reg .r3 = 0#32 ∧ KeptRegs s t [.r0, .r1, .r3] ∧ KeptStacks s t ∧ t.psr = s.psr ∧ t.pc = s.pc + 3#32 :=
  ⟨h.r3, h.keptRegs, h.stacks, h.psr, by rw [h, pc_advance, hsize]⟩

/-- Settles O50: the frame of the loops, and the rectangle's for memory. -/
theorem bbFrame : Obligations.BbFrame := by
  intro da inv i s t hi hexec
  obtain ⟨fn, inv', hbb, hsize⟩ : ∃ fn inv', IsBb i fn da inv' := by
    rcases hi with hi | ⟨rfl, rfl⟩
    · obtain ⟨fn, hbb⟩ := isBb_of_mem hi
      exact ⟨fn, inv, hbb⟩
    · exact ⟨_, _, isBb_bbfor⟩
  rw [hbb] at hexec
  have hframe := bbOp_frame hexec
  obtain ⟨hr3, hregs, hstacks, hpsr, hpc⟩ := keeps_of_bbFrameAt hsize hframe
  refine ⟨hr3, hregs, hstacks, hpsr, hpc, ?_⟩
  have hspecial : t.sb = s.sb ∧ t.intbase = s.intbase ∧ t.mod = s.mod ∧ t.cfg = s.cfg ∧ t.fregs = s.fregs ∧ t.fsr = s.fsr ∧
      t.nbpu = s.nbpu ∧ t.bpu = s.bpu ∧ t.waiting = s.waiting ∧ t.freeIdx = s.freeIdx := by
    rw [hframe]
    exact ⟨rfl, rfl, rfl, rfl, rfl, rfl, rfl, rfl, rfl, rfl⟩
  obtain ⟨hsb, hintbase, hmod, hcfg, hfregs, hfsr, hnbpu, hbpu, hwaiting, hfree⟩ := hspecial
  refine ⟨hsb, hintbase, hmod, hcfg, hfregs, hfsr, hnbpu, hbpu, hwaiting, hfree, ?_⟩
  rintro n moves width step dst hwidth hn rfl rfl hdst hclear a ha hsp
  have hle := bbBytes_le fn s.shiftValue
  obtain rfl : dst = bbDst da n s := by funext j k; exact hdst j k
  exact bbOp_keptOutside hexec hwidth hn (fun j hj k hk => apart_mono (hclear j hj k hk) hle)
    (fun j hj k hk hin => ha j hj k hk (inRange_mono hin hle)) hsp

/-! ### Completion -/

/-- The series completes where the rectangle of its state does: its words are clear of the pushed FP, and of the width at SP
until the last line. -/
theorem bbOp_of_forRectangle {i : Instr} {fn : BbFn} {da inv : Bool} {sh n : Nat} {s u : State} {width : Word16}
    (hm : BbMasks sh s) (hj : s.flag .j = false) (hk : s.flag .k = false) (hsp : 4 ≤ s.sp.toNat) (h0 : s.reg .r3 ≠ 0#32)
    (hwidth : s.load16 s.sp = .ok width) (hn : n = width.toNat) (hn0 : n ≠ 0)
    (hfp : ∀ j < (s.reg .r3).toNat, ∀ k < n, Apart (bbSrc da n s j k) 2 (s.sp - 4#32) 4 ∧
      Apart (bbDst da n s j k) (bbBytes fn sh) (s.sp - 4#32) 4)
    (hclear : ∀ j, j + 1 < (s.reg .r3).toNat → ∀ k < n, Apart (bbDst da n s j k) (bbBytes fn sh) s.sp 2)
    (hu : forRectangle (s.reg .r3).toNat n (bbRectWord fn da inv sh n s) s = .ok u) :
    ∃ t, bbOp i fn da inv s = .next t ∧ BbFrameAt (s.advance i) 0#32 t ∧
      t.reg .r0 = bbSrc da n s (s.reg .r3).toNat 0 ∧ t.reg .r1 = bbDst da n s (s.reg .r3).toNat 0 ∧ t.fp = s.fp ∧
      ∀ k, ¬InRange k (s.sp - 4#32) 4 → Memory.read t.mem k = Memory.read u.mem k := by
  have hready : bbReady s = .ok () := by
    obtain rfl := hm.shift
    exact bbReady_iff.2 ⟨hm, hj, hk, h0, width, hwidth, toNat_ne_zero.1 (hn ▸ hn0)⟩
  obtain ⟨p, hpush⟩ := push32_of_width s.fp hsp hwidth
  have hreg := reg_push32 hpush
  -- the rectangle done after the push
  obtain ⟨q, hq, hqu⟩ := (bothAnswer_bbRectangle hfp (sameBut_push32 hpush)).of_right hu
  -- the lines beside it
  have hlines := bothAnswer_bbLines (fn := fn) (da := da) (inv := inv) (hm.push32 hpush)
    ((load16_push32 hpush).trans hwidth) hn hn0 (by rw [hreg, bbDst_congr hreg, sp_push32_add hpush]; exact hclear)
  rw [bbRectWord_congr hreg, bbSrc_congr hreg, bbDst_congr hreg] at hlines
  obtain ⟨w, hw, hat⟩ := hlines.of_right (by rw [hreg]; exact hq)
  -- FP comes back from the stack
  have hsaved : w.load32 w.sp = .ok s.fp := by
    rw [hat.frame.sp, sp_push32 hpush, load32_congr hat.memory.1, ← load32_push32 hpush]
    exact load32_congr_bytes _ fun a hlow hhigh => forRectangle_keptOutside
      (fun j hj k hk hin => not_inRange_of_apart (hfp j hj k hk).2 hin ⟨hlow, hhigh⟩) hq
  refine ⟨_, bbOp_eq_next.2 ⟨hready, p, hpush, w, hw, s.fp, hsaved, rfl⟩, bbFrameAt_restore i hpush hat.frame, ?_, ?_, rfl,
    fun k hk => ?_⟩
  · rw [← hreg .r3, ← hat.r0]
    exact reg_congr (by simp) .r0
  · rw [← hreg .r3, ← hat.r1]
    exact reg_congr (by simp) .r1
  · rw [← hqu k hk, ← hat.memory.1]
    simp

/-- The five instructions with their functions, as O49 lists them. -/
theorem isBb_of_pair {fn : BbFn} {da inv : Bool} {i : Instr}
    (h : (fn, i) ∈ [(BbFn.or, Instr.bbor da inv), (.xor, .bbxor da inv), (.and, .bband da inv), (.stod, .bbstod da inv)] ∨
      (fn = .fastOr ∧ i = .bbfor ∧ da = false ∧ inv = false)) : IsBb i fn da inv := by
  simp only [List.mem_cons, List.not_mem_nil, or_false, Prod.mk.injEq] at h
  rcases h with (⟨rfl, rfl⟩ | ⟨rfl, rfl⟩ | ⟨rfl, rfl⟩ | ⟨rfl, rfl⟩) | ⟨rfl, rfl, rfl, rfl⟩
  · exact isBb_bbor da inv
  · exact isBb_bbxor da inv
  · exact isBb_bband da inv
  · exact isBb_bbstod da inv
  · exact isBb_bbfor

/-- Six bytes from four below SP on are the pushed FP and the width. -/
theorem apart_six {a p : Dword} {n : Nat} (hp : 4 ≤ p.toNat) (h : Apart a n (p - 4#32) 6) :
    Apart a n (p - 4#32) 4 ∧ Apart a n p 2 := by
  have : p.toNat = (p - 4#32).toNat + 4 := by bv_omega
  unfold Apart at h ⊢
  omega

/-! ### One word -/

/-- A rectangle of one word. -/
theorem forRectangle_one (word : Nat → Nat → State → Res State) (s : State) : forRectangle 1 1 word s = word 0 0 s := by
  simp only [forRectangle, List.range_one, List.foldlM_cons, List.foldlM_nil]
  cases word 0 0 s <;> rfl

/-- A word stored into a double-word whose high half it leaves alone. -/
theorem load32_store_word {s t : State} {a d v : Dword} (hd : s.load32 a = .ok d)
    (hhigh : ∀ k, 16 ≤ k → v.getLsbD k = d.getLsbD k) (h : s.store 2 a (v.setWidth 64) = .ok t) : t.load32 a = .ok v := by
  obtain ⟨x, hx, rfl⟩ := load32_eq_ok.1 hd
  obtain ⟨y, hy⟩ := load_of_fits t (fits_of_load hx (by decide))
  refine load32_eq_ok.2 ⟨y, hy, BitVec.eq_of_getLsbD_eq fun k hk => ?_⟩
  obtain ⟨-, -, houtside, hbytes, -⟩ := store_spec h
  rw [BitVec.getLsbD_setWidth, getLsbD_load hy k (by omega)]
  by_cases h16 : k < 16
  · rw [hbytes (k / 8) (by omega), BitVec.getLsbD_setWidth, BitVec.getLsbD_ushiftRight, BitVec.getLsbD_setWidth,
      show 8 * (k / 8) + k % 8 = k by omega]
    simp [hk, Nat.mod_lt k (show 0 < 8 by decide), show k < 64 by omega]
  · rw [houtside _ (by omega), hhigh k (by omega), BitVec.getLsbD_setWidth, getLsbD_load hx k (by omega)]

/-- Storing the low word of a value stores what its low word is. -/
theorem store_congr_low {s : State} {a v v' : Dword} (h : v.setWidth 16 = v'.setWidth 16) :
    s.store 2 a (v.setWidth 64) = s.store 2 a (v'.setWidth 64) := by
  rw [← store_word, h, store_word]

/-- The low word of a double-word in memory is the word there. -/
theorem low_of_load {s : State} {a : Dword} {x y : Quad} (hx : s.load 4 a = .ok x) (hy : s.load 2 a = .ok y) :
    (y.setWidth 32).setWidth 16 = (x.setWidth 32).setWidth 16 := by
  apply BitVec.eq_of_getLsbD_eq
  intro k hk
  simp only [BitVec.getLsbD_setWidth, getLsbD_load hx k (by omega), getLsbD_load hy k (by omega)]
  simp [show k < 8 * 2 by omega, show k < 8 * 4 by omega]

/-- One word of a rectangle makes of the double-word at the destination what `bbValue` says, though BBFOR with shift 0 handles
its low half only (R121). -/
theorem load32_bbStepAt {fn : BbFn} {inv : Bool} {sh : Nat} {m src dst d : Dword} {w : Word16} {s : State}
    (hm : m.toNat < 2 ^ 16) (hw : s.load16 src = .ok w) (hd : s.load32 dst = .ok d) :
    ∃ t, bbStepAt fn inv sh m src dst s = .ok t ∧
      t.load32 dst = .ok (bbValue fn sh m ((if inv then ~~~w else w).setWidth 32) d) := by
  obtain ⟨x, hx, hdx⟩ := load32_eq_ok.1 hd
  have hfits := fits_of_load hx (by decide)
  rw [bbStepAt, hw, ok_bind]
  by_cases hshort : fn = .fastOr ∧ sh = 0
  · obtain ⟨rfl, rfl⟩ := hshort
    obtain ⟨y, hy⟩ := load_of_fits s (show dst.toNat + 2 ≤ 2 ^ 24 by omega)
    have hlow : ∀ z, (bbValue .fastOr 0 m z (y.setWidth 32)).setWidth 16 = (bbValue .fastOr 0 m z d).setWidth 16 := by
      intro z
      rw [bbValue, bbValue, BitVec.setWidth_or, BitVec.setWidth_or, low_of_load hx hy, hdx]
    have hhigh : ∀ z k, 16 ≤ k → (bbValue .fastOr 0 m z d).getLsbD k = d.getLsbD k := by
      intro z k hk
      have hmk : m.getLsbD k = false := by
        rw [← BitVec.testBit_toNat]
        exact Nat.testBit_lt_two_pow (Nat.lt_of_lt_of_le hm (Nat.pow_le_pow_right (by decide) hk))
      rw [bbValue, BitVec.getLsbD_or, BitVec.shiftLeft_zero, BitVec.getLsbD_and, hmk, Bool.and_false, Bool.or_false]
    obtain ⟨t, ht⟩ := store_of_fits s ((bbValue .fastOr 0 m ((if inv then ~~~w else w).setWidth 32) d).setWidth 64)
      (show dst.toNat + 2 ≤ 2 ^ 24 by omega)
    rw [show bbBytes .fastOr 0 = 2 from rfl, hy, ok_bind, store_congr_low (hlow _)]
    exact ⟨t, ht, load32_store_word hd (hhigh _) ht⟩
  · have hbytes : bbBytes fn sh = 4 := if_neg hshort
    obtain ⟨t, ht⟩ := store_of_fits s
      ((bbValue fn sh m ((if inv then ~~~w else w).setWidth 32) (x.setWidth 32)).setWidth 64) hfits
    rw [hbytes, hx, ok_bind, hdx]
    exact ⟨t, ht, load32_store32_same ht⟩

/-- The rectangle of one word: its mask is R4, and each pointer moves by the step and by its warp (D36). -/
theorem bbOp_of_word {i : Instr} {fn : BbFn} {da inv : Bool} {sh : Nat} {s u : State}
    (hm : BbMasks sh s) (hj : s.flag .j = false) (hk : s.flag .k = false) (hsp : 4 ≤ s.sp.toNat) (hone : s.reg .r3 = 1#32)
    (hwidth : s.load16 s.sp = .ok 1#16) (hsrc : Apart (s.reg .r0) 2 (s.sp - 4#32) 4)
    (hdst : Apart (s.reg .r1) (bbBytes fn sh) (s.sp - 4#32) 4)
    (hu : bbStepAt fn inv sh (s.reg .r4) (s.reg .r0) (s.reg .r1) s = .ok u) :
    ∃ t, bbOp i fn da inv s = .next t ∧ BbFrameAt (s.advance i) 0#32 t ∧
      t.reg .r0 = s.reg .r0 + bbStep da + s.reg .r6 ∧ t.reg .r1 = s.reg .r1 + bbStep da + s.reg .r7 ∧ t.fp = s.fp ∧
      ∀ k, ¬InRange k (s.sp - 4#32) 4 → Memory.read t.mem k = Memory.read u.mem k := by
  have hheight : (s.reg .r3).toNat = 1 := by rw [hone]; rfl
  have hmoves : 1 = lineMoves 1 := rfl
  have hrect : forRectangle (s.reg .r3).toNat 1 (bbRectWord fn da inv sh 1 s) s = .ok u := by
    rw [hheight, forRectangle_one, bbRectWord, bbMaskAt_first, bbSrc_zero, bbDst_zero]
    exact hu
  have hapart : ∀ j < (s.reg .r3).toNat, ∀ k < 1, Apart (bbSrc da 1 s j k) 2 (s.sp - 4#32) 4 ∧
      Apart (bbDst da 1 s j k) (bbBytes fn sh) (s.sp - 4#32) 4 := by
    intro j hj k hk
    obtain rfl : j = 0 := by omega
    obtain rfl : k = 0 := by omega
    rw [bbSrc_zero, bbDst_zero]
    exact ⟨hsrc, hdst⟩
  obtain ⟨t, ht, hframe, ht0, ht1, hrest⟩ := bbOp_of_forRectangle (i := i) hm hj hk hsp (by rw [hone]; decide) hwidth
    (show 1 = (1#16).toNat from rfl) (by decide) hapart (fun j hj => by omega) hrect
  refine ⟨t, ht, hframe, ?_, ?_, hrest⟩
  · rw [ht0, hheight, ← bbSrc_line hmoves, ← bbSrc_succ, bbSrc_zero]
  · rw [ht1, hheight, ← bbDst_line hmoves, ← bbDst_succ, bbDst_zero]

/-- Settles O49: the rectangle of one word, and any rectangle, by `bbOp_of_forRectangle`. -/
theorem bbOneWord : Obligations.BbOneWord := by
  intro fn da inv i s sh step hi hshift hsmall hl h4 h5 hj hk hsp hstep
  obtain ⟨hexec, hsize⟩ := isBb_of_pair hi
  obtain rfl : step = bbStep da := hstep
  have hm : BbMasks sh s := ⟨hshift, hsmall, hl, h4, h5⟩
  rw [hexec]
  refine ⟨fun w d hone hwidth hsrc hdst hw hd => ?_, ?_⟩
  · have hle := bbBytes_le fn sh
    obtain ⟨u, hu, hvalue⟩ := load32_bbStepAt (fn := fn) (inv := inv) (sh := sh) h4 hw hd
    obtain ⟨t, ht, hframe, ht0, ht1, hfp, hmem⟩ :=
      bbOp_of_word (i := i) (da := da) hm hj hk hsp hone hwidth hsrc (apart_mono hdst hle) hu
    obtain ⟨hr3, hregs, hstacks, hpsr, hpc⟩ := keeps_of_bbFrameAt hsize hframe
    refine ⟨t, ht, ?_, ht0, ht1, hr3, hregs, hfp, hstacks, hpsr, hpc, fun k hkdst hksp => ?_⟩
    · rw [← hvalue]
      exact load32_congr_bytes _ fun a hlow hhigh => hmem a (not_inRange_of_apart hdst ⟨hlow, hhigh⟩)
    · rw [hmem k hksp]
      exact keptOutside_bbStepAt hu k fun hin => hkdst (inRange_mono hin hle)
  · intro h n moves width src dst u hh h0 hwidth hn hn0 hmoves hsrc hdst hapart hu
    subst hh hmoves
    obtain rfl : src = bbSrc da n s := by funext j k; exact hsrc j k
    obtain rfl : dst = bbDst da n s := by funext j k; exact hdst j k
    have hsix := fun j hj k hk => apart_six hsp (hapart j hj k hk).2
    obtain ⟨t, ht, hframe, ht0, ht1, hfp, hmem⟩ := bbOp_of_forRectangle (i := i) hm hj hk hsp
      (fun hzero => h0 (by rw [hzero]; rfl)) hwidth hn hn0
      (fun j hj k hk => ⟨(hapart j hj k hk).1, (hsix j hj k hk).1⟩) (fun j hj k hk => (hsix j (by omega) k hk).2) hu
    obtain ⟨hr3, hregs, hstacks, hpsr, hpc⟩ := keeps_of_bbFrameAt hsize hframe
    exact ⟨t, ht, ht0, ht1, hr3, hregs, hfp, hstacks, hpsr, hpc, hmem⟩

end Sys2Proof.Proofs
end

section
/-! PROOFS about the refusals of the graphics instructions (O57), in the order of their tests (log 48). -/

namespace Sys2Proof.Proofs

open Sys2Proof.Machine Sys2Proof.Claims

/-! ### The series and BITWT -/

section
variable {s : State}

/-- A test that fails is the refusal of the sequence it begins. -/
theorem require_bind_of_false {α : Type} {c : Bool} (h : c = false) (r : Refusal) (f : Unit → Res α) :
    (require c r >>= f) = .error (.refuse r) := by
  rw [h, require_false, error_bind]

/-- A test that holds leaves the sequence after it. -/
theorem require_bind_of_true {α : Type} {c : Bool} (h : c = true) (r : Refusal) (f : Unit → Res α) :
    (require c r >>= f) = f () := by
  rw [h, require_true, ok_bind]

theorem shiftReady_outOfRange (h : 15 < s.shiftValue) : shiftReady s = .error (.refuse .shiftOutOfRange) :=
  require_bind_of_false (by simpa using h) _ _

theorem shiftReady_mismatch (h : s.shiftValue ≤ 15) (hl : s.flag .l ≠ decide (s.shiftValue ≠ 0)) :
    shiftReady s = .error (.refuse .lFlagMismatch) := by
  rw [shiftReady, require_bind_of_true (by simpa using h), beq_eq_false_iff_ne.2 hl, require_false]

theorem shiftReady_ok (h : s.shiftValue ≤ 15) (hl : s.flag .l = decide (s.shiftValue ≠ 0)) : shiftReady s = .ok () := by
  rw [shiftReady, require_bind_of_true (by simpa using h), beq_iff_eq.2 hl, require_true]

/-- The tests of the series after those it shares with BITWT. -/
theorem bbReady_of_shift (h : s.shiftValue ≤ 15) (hl : s.flag .l = decide (s.shiftValue ≠ 0)) : bbReady s = (do
    require ((s.reg .r4).extractLsb' 16 16 == 0#16 && (s.reg .r5).extractLsb' 16 16 == 0#16) .maskHighBits
    require (!s.flag .j && !s.flag .k) .jkSet
    require (s.reg .r3 != 0#32) .heightZero
    let width ← s.load16 s.sp
    require (width != 0#16) .widthZero) := by
  rw [bbReady, shiftReady_ok h hl, ok_bind]

theorem masks_eq_true_iff : ((s.reg .r4).extractLsb' 16 16 == 0#16 && (s.reg .r5).extractLsb' 16 16 == 0#16) = true ↔
    (s.reg .r4).toNat < 2 ^ 16 ∧ (s.reg .r5).toNat < 2 ^ 16 := by
  rw [Bool.and_eq_true, beq_iff_eq, beq_iff_eq, high_eq_zero_iff, high_eq_zero_iff]

theorem bbReady_maskHighBits (h : s.shiftValue ≤ 15) (hl : s.flag .l = decide (s.shiftValue ≠ 0))
    (hmask : 2 ^ 16 ≤ (s.reg .r4).toNat ∨ 2 ^ 16 ≤ (s.reg .r5).toNat) : bbReady s = .error (.refuse .maskHighBits) := by
  rw [bbReady_of_shift h hl]
  refine require_bind_of_false (Bool.eq_false_iff.2 fun htrue => ?_) _ _
  obtain ⟨h4, h5⟩ := masks_eq_true_iff.1 htrue
  omega

/-- The tests of the series after those of the masks. -/
theorem bbReady_of_masks (hm : BbMasks s.shiftValue s) : bbReady s = (do
    require (!s.flag .j && !s.flag .k) .jkSet
    require (s.reg .r3 != 0#32) .heightZero
    let width ← s.load16 s.sp
    require (width != 0#16) .widthZero) := by
  rw [bbReady_of_shift hm.small hm.l]
  exact require_bind_of_true (masks_eq_true_iff.2 ⟨hm.r4, hm.r5⟩) _ _

theorem bbReady_jkSet (hm : BbMasks s.shiftValue s) (h : s.flag .j = true ∨ s.flag .k = true) :
    bbReady s = .error (.refuse .jkSet) := by
  rw [bbReady_of_masks hm]
  refine require_bind_of_false ?_ _ _
  rcases h with h | h <;> simp [h]

theorem bbReady_heightZero (hm : BbMasks s.shiftValue s) (hj : s.flag .j = false) (hk : s.flag .k = false)
    (h : s.reg .r3 = 0#32) : bbReady s = .error (.refuse .heightZero) := by
  rw [bbReady_of_masks hm, require_bind_of_true (by simp [hj, hk])]
  exact require_bind_of_false (by simp [h]) _ _

theorem bbReady_widthZero (hm : BbMasks s.shiftValue s) (hj : s.flag .j = false) (hk : s.flag .k = false)
    (h : s.reg .r3 ≠ 0#32) (hwidth : s.load16 s.sp = .ok 0#16) : bbReady s = .error (.refuse .widthZero) := by
  rw [bbReady_of_masks hm, require_bind_of_true (by simp [hj, hk]), require_bind_of_true (by simpa using h), hwidth]
  rfl

/-- An instruction of the series is refused as its tests are. -/
theorem bbOp_refused {i : Instr} {fn : BbFn} {da inv : Bool} {r : Refusal} (h : bbReady s = .error (.refuse r)) :
    bbOp i fn da inv s = .refused r := by
  rw [bbOp, h, error_bind, finish_refuse]

theorem bbReady_of_shiftReady_error {e : Stop} (h : shiftReady s = .error e) : bbReady s = .error e := by
  rw [bbReady, h, error_bind]

theorem bitwt_refused {r : Refusal} (h : shiftReady s = .error (.refuse r)) : exec .bitwt s = .refused r := by
  change finish (shiftReady s >>= _) = _
  rw [h, error_bind, finish_refuse]

/-- Every instruction of the series is `bbOp` for some function and options. -/
theorem isBb_of_mem_series {i : Instr} {da inv : Bool}
    (h : i ∈ [Instr.bbor da inv, .bbxor da inv, .bband da inv, .bbstod da inv, .bbfor]) : ∃ fn da inv, IsBb i fn da inv := by
  rcases List.mem_append.1 (show i ∈ [Instr.bbor da inv, .bbxor da inv, .bband da inv, .bbstod da inv] ++ [.bbfor] from h)
    with h | h
  · obtain ⟨fn, hbb⟩ := isBb_of_mem h
    exact ⟨fn, da, inv, hbb⟩
  · obtain rfl := List.mem_singleton.1 h
    exact ⟨_, _, _, isBb_bbfor⟩

theorem series_refused {i : Instr} {da inv : Bool} {r : Refusal}
    (hi : i ∈ [Instr.bbor da inv, .bbxor da inv, .bband da inv, .bbstod da inv, .bbfor])
    (h : bbReady s = .error (.refuse r)) : exec i s = .refused r := by
  obtain ⟨fn, da', inv', hexec, -⟩ := isBb_of_mem_series hi
  rw [hexec, bbOp_refused h]

/-- The series and BITWT are refused as the tests that they share are. -/
theorem shift_refused {i : Instr} {da inv : Bool} {r : Refusal}
    (hi : i ∈ [Instr.bbor da inv, .bbxor da inv, .bband da inv, .bbstod da inv, .bbfor, .bitwt])
    (h : shiftReady s = .error (.refuse r)) : exec i s = .refused r := by
  rcases List.mem_append.1
    (show i ∈ [Instr.bbor da inv, .bbxor da inv, .bband da inv, .bbstod da inv, .bbfor] ++ [.bitwt] from hi) with hi | hi
  · exact series_refused hi (bbReady_of_shiftReady_error h)
  · obtain rfl := List.mem_singleton.1 hi
    exact bitwt_refused h

/-! ### EXTBLT -/

/-- The tests of EXTBLT; a BPU is fitted (log 12). -/
theorem extbltReady_eq (s : State) : extbltReady s = (do
    require (s.reg .r4 == 2#32 || s.reg .r4 == 0xFFFFFFFE#32) .horizontalIncrement
    require (s.reg .r2 != 0#32 && (s.reg .r2).msb == (s.reg .r4).msb && !(s.reg .r2).getLsbD 0) .extbltWidth
    require (s.reg .r3 != 0#32) .heightZero
    require (!(s.reg .r0).getLsbD 0 && !(s.reg .r1).getLsbD 0 && !(s.reg .r6).getLsbD 0 && !(s.reg .r7).getLsbD 0)
      .oddAddress) := rfl

theorem extblt_refused {r : Refusal} (h : extbltReady s = .error (.refuse r)) : exec .extblt s = .refused r := by
  change finish (extbltReady s >>= _) = _
  rw [h, error_bind, finish_refuse]

theorem getLsbD_zero_eq {x : Dword} : x.getLsbD 0 = decide (x.toNat % 2 = 1) := by
  rw [← BitVec.testBit_toNat, Nat.testBit_zero]

theorem msb_beq_msb {x y : Dword} : (x.msb == y.msb) = decide (x.toInt < 0 ↔ y.toInt < 0) := by
  rw [BitVec.msb_eq_toInt, BitVec.msb_eq_toInt]
  by_cases hx : x.toInt < 0 <;> by_cases hy : y.toInt < 0 <;> simp [hx, hy]

theorem width_eq_true_iff : (s.reg .r2 != 0#32 && (s.reg .r2).msb == (s.reg .r4).msb && !(s.reg .r2).getLsbD 0) = true ↔
    s.reg .r2 ≠ 0#32 ∧ ((s.reg .r2).toInt < 0 ↔ (s.reg .r4).toInt < 0) ∧ (s.reg .r2).toNat % 2 = 0 := by
  rw [msb_beq_msb, getLsbD_zero_eq]
  simp only [Bool.and_eq_true, bne_iff_ne, decide_eq_true_eq, Bool.not_eq_true', decide_eq_false_iff_not, and_assoc,
    Nat.mod_two_not_eq_one]

theorem increment_eq_true_iff : (s.reg .r4 == 2#32 || s.reg .r4 == 0xFFFFFFFE#32) = true ↔
    s.reg .r4 = 2#32 ∨ s.reg .r4 = 0xFFFFFFFE#32 := by
  rw [Bool.or_eq_true, beq_iff_eq, beq_iff_eq]

theorem extbltReady_horizontalIncrement (h2 : s.reg .r4 ≠ 2#32) (hm2 : s.reg .r4 ≠ 0xFFFFFFFE#32) :
    extbltReady s = .error (.refuse .horizontalIncrement) := by
  rw [extbltReady_eq]
  refine require_bind_of_false (Bool.eq_false_iff.2 fun htrue => ?_) _ _
  rcases increment_eq_true_iff.1 htrue with h | h
  · exact h2 h
  · exact hm2 h

theorem extbltReady_width (h4 : s.reg .r4 = 2#32 ∨ s.reg .r4 = 0xFFFFFFFE#32)
    (h : s.reg .r2 = 0#32 ∨ (s.reg .r2).toNat % 2 = 1 ∨ ¬((s.reg .r2).toInt < 0 ↔ (s.reg .r4).toInt < 0)) :
    extbltReady s = .error (.refuse .extbltWidth) := by
  rw [extbltReady_eq, require_bind_of_true (increment_eq_true_iff.2 h4)]
  refine require_bind_of_false (Bool.eq_false_iff.2 fun htrue => ?_) _ _
  obtain ⟨hne, hsign, heven⟩ := width_eq_true_iff.1 htrue
  rcases h with h | h | h
  · exact hne h
  · omega
  · exact h hsign

/-- The tests of EXTBLT after those of the increment and the width. -/
theorem extbltReady_of_width (h4 : s.reg .r4 = 2#32 ∨ s.reg .r4 = 0xFFFFFFFE#32) (h0 : s.reg .r2 ≠ 0#32)
    (heven : (s.reg .r2).toNat % 2 = 0) (hsign : (s.reg .r2).toInt < 0 ↔ (s.reg .r4).toInt < 0) : extbltReady s = (do
    require (s.reg .r3 != 0#32) .heightZero
    require (!(s.reg .r0).getLsbD 0 && !(s.reg .r1).getLsbD 0 && !(s.reg .r6).getLsbD 0 && !(s.reg .r7).getLsbD 0)
      .oddAddress) := by
  rw [extbltReady_eq, require_bind_of_true (increment_eq_true_iff.2 h4)]
  exact require_bind_of_true (width_eq_true_iff.2 ⟨h0, hsign, heven⟩) _ _

end

/-- Settles O57: each test of `shiftReady`, `bbReady` and `extbltReady` in turn, the tests before it passed. -/
theorem graphicsRefusals : Obligations.GraphicsRefusals := by
  intro s da inv i sh hsh
  obtain rfl : sh = s.shiftValue := hsh
  refine ⟨fun hi => ⟨fun h => shift_refused hi (shiftReady_outOfRange h),
    fun h hl => shift_refused hi (shiftReady_mismatch h hl)⟩, fun hi h hl => ⟨fun hmask => ?_, fun h4 h5 => ?_⟩,
    fun h2 hm2 => extblt_refused (extbltReady_horizontalIncrement h2 hm2),
    fun h4 => ⟨fun hw => extblt_refused (extbltReady_width h4 hw), fun h0 heven hsign => ?_⟩⟩
  · exact series_refused hi (bbReady_maskHighBits h hl hmask)
  · have hm : BbMasks s.shiftValue s := ⟨rfl, h, hl, h4, h5⟩
    exact ⟨fun hjk => series_refused hi (bbReady_jkSet hm hjk),
      fun hj hk => ⟨fun h3 => series_refused hi (bbReady_heightZero hm hj hk h3),
        fun h3 hw => series_refused hi (bbReady_widthZero hm hj hk h3 hw)⟩⟩
  · have hready := extbltReady_of_width h4 h0 heven hsign
    refine ⟨fun h3 => extblt_refused ?_, fun h3 hodd => extblt_refused ?_⟩
    · rw [hready]
      exact require_bind_of_false (by simp [h3]) _ _
    · rw [hready, require_bind_of_true (by simpa using h3)]
      simp only [getLsbD_zero_eq]
      rcases hodd with h | h | h | h <;> simp [h]

end Sys2Proof.Proofs
end

section
/-! PROOFS about the flags of the graphics instructions (O13): all that each of them can do to a state. -/

namespace Sys2Proof.Proofs

open Sys2Proof.Machine Sys2Proof.Claims

/-! ### Loops and words -/

/-- All that MOVMPi's loop can do. -/
theorem patternLoop_spec {bytes n : Nat} {s t : State} (h : patternLoop bytes n s = .ok t) :
    t = { s with regs := t.regs, mem := t.mem, unflushed := t.unflushed } := by
  induction n generalizing s with
  | zero => cases h; rfl
  | succ n ih =>
    obtain ⟨u, hu, h⟩ := bind_eq_ok.1 h
    rw [ih h, (store_spec hu).1]
    rfl

/-- All that storing a byte can do. -/
theorem storeByte_spec {s t : State} {a : Dword} {b : Byte} (h : s.storeByte a b = .ok t) :
    t = { s with mem := t.mem, unflushed := t.unflushed } := by
  obtain ⟨-, rfl⟩ := storeByte_eq_ok.1 h
  rfl

/-- All that SBITPS's loop can do. -/
theorem perpendicularLoop_spec {n : Nat} {s t : State} (h : perpendicularLoop n s = .ok t) :
    t = { s with regs := t.regs, mem := t.mem, unflushed := t.unflushed } := by
  induction n generalizing s with
  | zero => cases h; rfl
  | succ n ih =>
    simp only [perpendicularLoop, bind_eq_ok] at h
    obtain ⟨v, -, u, hu, h⟩ := h
    rw [ih h, storeByte_spec hu]
    rfl

/-- All that the word of BITWT can do. -/
theorem bitwtWord_spec {s t : State} (h : bitwtWord s = .ok t) : t = { s with mem := t.mem, unflushed := t.unflushed } := by
  simp only [bitwtWord, bind_eq_ok] at h
  obtain ⟨w, -, h⟩ := h
  split at h <;>
    (obtain ⟨d, -, h⟩ := bind_eq_ok.1 h
     exact (store_spec h).1)

/-- All that a word of EXTBLT can do. -/
theorem extbltWord_spec {first : Bool} {s t : State} (h : extbltWord first s = .ok t) :
    t = { s with bpu := t.bpu, mem := t.mem, unflushed := t.unflushed } := by
  simp only [extbltWord, bind_eq_ok] at h
  obtain ⟨ws, -, d, -, h⟩ := h
  rw [(store_spec h).1]

/-- All that the words of a line of EXTBLT can do. -/
theorem extbltWords_spec {n : Nat} {first : Bool} {s t : State} (h : extbltWords n first s = .ok t) :
    t = { s with regs := t.regs, bpu := t.bpu, mem := t.mem, unflushed := t.unflushed } := by
  induction n generalizing first s with
  | zero => cases h; rfl
  | succ n ih =>
    simp only [extbltWords, bind_eq_ok] at h
    obtain ⟨u, hu, h⟩ := h
    split at h
    · cases h
      rw [extbltWord_spec hu]
      rfl
    · rw [ih h, extbltWord_spec hu]
      rfl

/-- All that the lines of EXTBLT can do. -/
theorem extbltLines_spec {n : Nat} {s t : State} (h : extbltLines n s = .ok t) :
    t = { s with regs := t.regs, bpu := t.bpu, mem := t.mem, unflushed := t.unflushed } := by
  induction n generalizing s with
  | zero => cases h; rfl
  | succ n ih =>
    simp only [extbltLines, bind_eq_ok] at h
    obtain ⟨u, hu, h⟩ := h
    split at h
    · cases h
      rw [extbltWords_spec hu]
      rfl
    · rw [ih h, extbltWords_spec hu]
      rfl

/-! ### The instructions -/

/-- What a graphics instruction may do, but for PC: it keeps every flag but the named ones, the stack pointers and the
registers that exceptions and modules use. -/
structure GraphicsFrame (flags : List Flag) (s t : State) : Prop where
  frame : t = { s with regs := t.regs, fp := t.fp, psr := t.psr, bbMask := t.bbMask, nbpu := t.nbpu, bpu := t.bpu,
                       mem := t.mem, unflushed := t.unflushed }
  flags : KeptPsr s t flags

section
variable {flags : List Flag} {s t u : State}

theorem GraphicsFrame.psr (h : GraphicsFrame [] s t) : t.psr = s.psr :=
  BitVec.eq_of_getLsbD_eq fun k _ => h.flags k (by simp)

theorem GraphicsFrame.trans (h : GraphicsFrame flags s t) (k : GraphicsFrame flags t u) : GraphicsFrame flags s u :=
  ⟨by rw [k.frame, h.frame], fun b hb => (k.flags b hb).trans (h.flags b hb)⟩

theorem GraphicsFrame.advance (h : GraphicsFrame flags s t) (i : Instr) : GraphicsFrame flags (s.advance i) (t.advance i) :=
  ⟨by rw [h.frame]; rfl, h.flags⟩

theorem graphicsFrame_setFlag {fl : Flag} (hfl : fl ∈ flags) (s : State) (b : Bool) : GraphicsFrame flags s (s.setFlag fl b) :=
  ⟨rfl, (flagsOnly_setFlag hfl s b).psr⟩

theorem graphicsFrame_setReg (s : State) (r : Reg) (v : Dword) : GraphicsFrame flags s (s.setReg r v) :=
  ⟨by rw [setReg_frame], fun _ _ => by rw [psr_setReg]⟩

theorem graphicsFrame_store {n : Nat} {a : Dword} {v : Quad} (h : s.store n a v = .ok t) : GraphicsFrame flags s t := by
  rw [(store_spec h).1]
  exact ⟨rfl, fun _ _ => rfl⟩

theorem graphicsFrame_movmp {i : Instr} {bytes : Nat} (h : movmpOp i bytes s = .next t) : GraphicsFrame [] (s.advance i) t := by
  simp only [movmpOp, finish_eq_next, bind_eq_ok, pure_eq_ok, Except.ok.injEq] at h
  obtain ⟨u, hu, rfl⟩ := h
  rw [patternLoop_spec hu]
  exact ⟨rfl, fun _ _ => rfl⟩

theorem graphicsFrame_sbitps (h : exec .sbitps s = .next t) : GraphicsFrame [] (s.advance .sbitps) t := by
  change execSbitps s = .next t at h
  simp only [execSbitps, finish_eq_next, bind_eq_ok, pure_eq_ok, Except.ok.injEq] at h
  obtain ⟨u, hu, rfl⟩ := h
  rw [perpendicularLoop_spec hu]
  exact ⟨rfl, fun _ _ => rfl⟩

theorem graphicsFrame_bb {i : Instr} {fn : BbFn} {da inv : Bool} (hi : IsBb i fn da inv) (h : exec i s = .next t) :
    GraphicsFrame [] (s.advance i) t := by
  obtain ⟨hexec, -⟩ := hi
  rw [hexec] at h
  rw [bbOp_frame h]
  exact ⟨rfl, fun _ _ => rfl⟩

theorem graphicsFrame_bitwt (h : exec .bitwt s = .next t) : GraphicsFrame [] (s.advance .bitwt) t := by
  change execBitwt s = .next t at h
  simp only [execBitwt, finish_eq_next, bind_eq_ok, pure_eq_ok, Except.ok.injEq] at h
  obtain ⟨-, -, u, hu, rfl⟩ := h
  rw [bitwtWord_spec hu]
  exact ⟨rfl, fun _ _ => rfl⟩

/-- Between its push and its pop EXTBLT moves no stack pointer. -/
theorem graphicsFrame_extblt (h : exec .extblt s = .next t) : GraphicsFrame [] (s.advance .extblt) t := by
  change execExtblt s = .next t at h
  simp only [execExtblt, finish_eq_next, bind_eq_ok, pure_eq_ok, Except.ok.injEq, Prod.exists, pop32_eq_ok] at h
  obtain ⟨-, -, u, hu, w, hw, v, -, ⟨-, rfl⟩, rfl⟩ := h
  have hspec := extbltLines_spec hw
  have hrestore : State.setSp { w with nbpu := false } (State.sp { w with nbpu := false } + 4#32) =
      { w with nbpu := false, sp0 := s.sp0, sp1 := s.sp1 } :=
    setSp_of_push32 hu (by rw [hspec]) (by rw [hspec]) (by rw [hspec])
  rw [hrestore, hspec, (push32_spec hu).1]
  exact ⟨by simp [State.advance, State.setPc], fun _ _ => by simp⟩

theorem graphicsFrame_sbits (h : exec .sbits s = .next t) : GraphicsFrame [.f] (s.advance .sbits) t := by
  change execSbits s = .next t at h
  simp only [execSbits, finish_eq_next] at h
  split at h <;> simp only [bind_eq_ok, pure_eq_ok, Except.ok.injEq] at h
  · obtain ⟨-, -, rfl⟩ := h
    exact (graphicsFrame_setFlag (by decide) s true).advance _
  · obtain ⟨e, -, d, -, u, hu, rfl⟩ := h
    exact ((graphicsFrame_store hu).trans (graphicsFrame_setFlag (by decide) u false)).advance _

theorem graphicsFrame_testLoop {ones : Bool} {n : Nat} (h : testLoop ones n s = .ok t) : GraphicsFrame [.f, .l] s t := by
  induction n generalizing s with
  | zero => cases h; exact ⟨rfl, fun _ _ => rfl⟩
  | succ n ih =>
    simp only [testLoop, bind_eq_ok] at h
    obtain ⟨v, -, h⟩ := h
    have hbit : GraphicsFrame [.f, .l] s (s.setFlag .f (v.getLsbD (bitPos (s.reg .r1)))) :=
      graphicsFrame_setFlag (by decide) s _
    have hmove := fun x y => (hbit.trans (graphicsFrame_setReg _ .r1 x)).trans (graphicsFrame_setReg _ .r2 y)
    split at h
    · cases h; exact hbit.trans (graphicsFrame_setFlag (by decide) _ true)
    · split at h
      · cases h; exact (hmove _ _).trans (graphicsFrame_setFlag (by decide) _ true)
      · split at h
        · cases h; exact (hmove _ _).trans (graphicsFrame_setFlag (by decide) _ false)
        · exact (hmove _ _).trans (ih h)

theorem graphicsFrame_tbits {ones : Bool} (h : exec (.tbits ones) s = .next t) :
    GraphicsFrame [.f, .l] (s.advance (.tbits ones)) t := by
  change execTbits ones s = .next t at h
  simp only [execTbits, finish_eq_next] at h
  split at h
  · cases h
    exact ((graphicsFrame_setFlag (by decide) s false).trans (graphicsFrame_setFlag (by decide) _ ones)).advance _
  · simp only [bind_eq_ok, pure_eq_ok, Except.ok.injEq] at h
    obtain ⟨u, hu, rfl⟩ := h
    exact (graphicsFrame_testLoop hu).advance _

/-- What O13 says of PC, the stacks and the other registers. -/
theorem GraphicsFrame.kept {i : Instr} (hsize : i.size = 3) (h : GraphicsFrame flags (s.advance i) t) :
    t.pc = s.pc + 3#32 ∧ KeptStacks s t ∧ t.sb = s.sb ∧ t.intbase = s.intbase ∧ t.mod = s.mod ∧ t.cfg = s.cfg ∧
      t.fregs = s.fregs ∧ t.fsr = s.fsr := by
  rw [h.frame]
  exact ⟨by rw [← hsize]; rfl, ⟨rfl, rfl⟩, rfl, rfl, rfl, rfl, rfl, rfl⟩

end

/-! ### The statement -/

section
variable {i : Instr} {s t : State}

/-- The instructions that change no flag. -/
theorem graphicsFrame_flagless (hi : (∃ da inv, i = .bbor da inv ∨ i = .bbxor da inv ∨ i = .bband da inv ∨ i = .bbstod da inv) ∨
      i ∈ [Instr.bbfor, .bitwt, .extblt, .movmpb, .movmpw, .movmpd, .sbitps]) (h : exec i s = .next t) :
    i.size = 3 ∧ GraphicsFrame [] (s.advance i) t := by
  rcases hi with ⟨da, inv, hi⟩ | hi
  · obtain ⟨fn, hbb⟩ := isBb_of_mem (show i ∈ [Instr.bbor da inv, .bbxor da inv, .bband da inv, .bbstod da inv] by
      simpa using hi)
    exact ⟨hbb.2, graphicsFrame_bb hbb h⟩
  · simp only [List.mem_cons, List.not_mem_nil, or_false] at hi
    rcases hi with rfl | rfl | rfl | rfl | rfl | rfl | rfl
    · exact ⟨rfl, graphicsFrame_bb isBb_bbfor h⟩
    · exact ⟨rfl, graphicsFrame_bitwt h⟩
    · exact ⟨rfl, graphicsFrame_extblt h⟩
    · exact ⟨rfl, graphicsFrame_movmp h⟩
    · exact ⟨rfl, graphicsFrame_movmp h⟩
    · exact ⟨rfl, graphicsFrame_movmp h⟩
    · exact ⟨rfl, graphicsFrame_sbitps h⟩

end

/-- Settles O13: the frame of each of the thirteen instructions. -/
theorem graphicsFlags : Obligations.GraphicsFlags := by
  intro i s t h
  refine ⟨fun hi => (graphicsFrame_flagless hi h).2.psr, ?_, ?_, fun hi => ?_⟩
  · rintro rfl
    exact (graphicsFrame_sbits h).flags
  · rintro ⟨ones, rfl⟩
    exact (graphicsFrame_tbits h).flags
  · rcases hi with hi | ⟨ones, rfl⟩ | hi
    · obtain ⟨hsize, hframe⟩ := graphicsFrame_flagless (.inl hi) h
      exact hframe.kept hsize
    · exact (graphicsFrame_tbits h).kept rfl
    · rcases List.mem_append.1 (show i ∈ [Instr.bbfor, .bitwt, .extblt, .movmpb, .movmpw, .movmpd, .sbitps] ++ [.sbits] from hi)
        with hi | hi
      · obtain ⟨hsize, hframe⟩ := graphicsFrame_flagless (.inr hi) h
        exact hframe.kept hsize
      · obtain rfl := List.mem_singleton.1 hi
        exact (graphicsFrame_sbits h).kept rfl

end Sys2Proof.Proofs
end

section
/-! PROOFS about BITWT (O51): its word, whichever of the two widths the shift selects. -/

namespace Sys2Proof.Proofs

open Sys2Proof.Machine Sys2Proof.Claims

section
variable {s t : State} {n : Nat} {a : Dword} {v d : Quad}

/-! ### Values of a few bytes -/

/-- What a load of `n` bytes answers is no wider than they are. -/
theorem setWidth_load (h : s.load n a = .ok v) : (v.setWidth (8 * n)).setWidth 64 = v := by
  apply BitVec.eq_of_getLsbD_eq
  intro k hk
  rw [BitVec.getLsbD_setWidth, BitVec.getLsbD_setWidth, decide_eq_true hk, Bool.true_and]
  by_cases hlow : k < 8 * n
  · rw [decide_eq_true hlow, Bool.true_and]
  · rw [load_high h (by omega), Bool.and_false]

/-- A value that fits the bytes stored reads back as it is. -/
theorem load_store_of_fits (h : s.store n a v = .ok t) (hn : n ≤ 8) (hv : v.toNat < 2 ^ (8 * n)) :
    t.load n a = .ok v := by
  rw [load_store_same h hn, Nat.mod_eq_of_lt hv, BitVec.ofNat_toNat, BitVec.setWidth_eq]

theorem toNat_load_lt (h : s.load n a = .ok v) : v.toNat < 2 ^ (8 * n) := by
  rw [← setWidth_load h, BitVec.toNat_setWidth]
  exact (Nat.mod_le _ _).trans_lt (v.setWidth (8 * n)).isLt

/-! ### The word -/

/-- The bytes of the destination: a double-word, or a word when the shift is zero (R141). -/
def bitwtBytes (s : State) : Nat := if s.shiftValue = 0 then 2 else 4

theorem bitwtBytes_bounds (s : State) : 0 < bitwtBytes s ∧ bitwtBytes s ≤ 8 := by
  unfold bitwtBytes
  split <;> decide

/-- What BITWT ORs into the destination. -/
def bitwtSource (w : Word16) (s : State) : Quad := (w.setWidth 32 <<< s.shiftValue).setWidth 64

/-- A shifted word fits a double-word, and one not shifted fits a word. -/
theorem toNat_bitwtSource_lt (w : Word16) (s : State) : (bitwtSource w s).toNat < 2 ^ (8 * bitwtBytes s) := by
  rw [bitwtSource, bitwtBytes, BitVec.toNat_setWidth_of_le (by decide)]
  split
  · next hzero =>
    rw [hzero, BitVec.shiftLeft_zero, BitVec.toNat_setWidth_of_le (by decide)]
    exact w.isLt
  · exact BitVec.isLt _

/-- With L as the preconditions want it, the word of BITWT is one load, one OR and one store of the selected width. -/
theorem bitwtWord_eq {w : Word16} (hl : s.flag .l = decide (s.shiftValue ≠ 0)) (hw : s.load16 (s.reg .r0) = .ok w)
    (hd : s.load (bitwtBytes s) (s.reg .r1) = .ok d) :
    bitwtWord s = s.store (bitwtBytes s) (s.reg .r1) (d ||| bitwtSource w s) := by
  rw [bitwtWord, hw, ok_bind]
  by_cases hzero : s.shiftValue = 0
  · have hbytes : bitwtBytes s = 2 := if_pos hzero
    have hflag : s.flag .l = false := by simp [hl, hzero]
    have hd64 := setWidth_load hd
    rw [hbytes] at hd hd64 ⊢
    rw [hflag, if_neg (by decide), State.load16, hd, ok_bind, pure_eq_ok, ok_bind, State.store16, BitVec.setWidth_or, hd64,
      bitwtSource, hzero, BitVec.shiftLeft_zero, BitVec.setWidth_setWidth_of_le w (by decide), BitVec.setWidth_eq,
      BitVec.setWidth_setWidth (x := w) (by decide)]
  · have hbytes : bitwtBytes s = 4 := if_neg hzero
    have hflag : s.flag .l = true := by simp [hl, hzero]
    have hd64 := setWidth_load hd
    rw [hbytes] at hd hd64 ⊢
    rw [hflag, if_pos rfl, State.load32, hd, ok_bind, pure_eq_ok, ok_bind, State.store32, BitVec.setWidth_or, hd64, bitwtSource]

end

/-- Settles O51: the word of BITWT, and the pointers moved after it. -/
theorem bitwtResult : Obligations.BitwtResult := by
  rintro s w d sh n rfl hsmall hl rfl hw hd
  change s.load (bitwtBytes s) (s.reg .r1) = .ok d at hd
  obtain ⟨hpos, hle⟩ := bitwtBytes_bounds s
  obtain ⟨u, hu⟩ := store_of_fits s (d ||| bitwtSource w s) (fits_of_load hd hpos)
  obtain ⟨hframe, -, hkept, -⟩ := store_spec hu
  have hexec : exec .bitwt s = .next ((movePointers 2#32 u).advance .bitwt) := by
    change finish (shiftReady s >>= _) = _
    rw [shiftReady_ok hsmall hl, ok_bind, bitwtWord_eq hl hw hd, hu]
    rfl
  have hfits := Nat.or_lt_two_pow (toNat_load_lt hd) (toNat_bitwtSource_lt w s)
  rw [← BitVec.toNat_or] at hfits
  have hread := load_store_of_fits hu hle hfits
  have hmem : ((movePointers 2#32 u).advance .bitwt).mem = u.mem := rfl
  refine ⟨_, hexec, (load_congr hmem _ _).trans hread, fun k hk => by rw [hmem]; exact hkept k hk, ?_⟩
  rw [hframe]
  refine ⟨rfl, rfl, fun r hr => ?_, rfl, ⟨rfl, rfl⟩, ⟨rfl, rfl, rfl, rfl, rfl, rfl, rfl, rfl, rfl, rfl, rfl⟩, rfl⟩
  cases r with
  | r0 | r1 => simp at hr
  | r2 | r3 | r4 | r5 | r6 | r7 => rfl

end Sys2Proof.Proofs
end

section
/-! PROOFS about EXTBLT (O52), first part: one word, and its lines as the lines of a rectangle. -/

namespace Sys2Proof.Proofs

open Sys2Proof.Machine Sys2Proof.Claims

/-! ### One word -/

/-- Another relation, that may use what both operations answer. -/
theorem BothAnswer.imp_both {α β : Type} {R R' : α → β → Prop} {x : Res α} {y : Res β} (h : BothAnswer R x y)
    (hr : ∀ a b, x = .ok a → y = .ok b → R a b → R' a b) : BothAnswer R' x y :=
  match x, y, h, hr with
  | .ok a, .ok b, hab, hr => hr a b rfl rfl hab
  | .error _, .error _, _, _ => trivial

section
variable {s t u : State} {src dst p : Dword} {m : Nat} {twice first : Bool}

/-- A word of EXTBLT is one of a rectangle, at R0 and R1; the second read of the source finds the word of the first (R149). -/
theorem extbltWord_eq (first : Bool) (s : State) :
    extbltWord first s = bpuStepAt (first && !s.flag .l) (s.reg .r0) (s.reg .r1) s := by
  rw [extbltWord, extbltSource, bpuStepAt]
  cases hw : s.load16 (s.reg .r0) with
  | error e => rfl
  | ok w =>
    cases first <;> cases hl : s.flag .l <;> rfl

/-- A word of a rectangle changes its destination's bytes only. -/
theorem keptOutside_bpuStepAt (h : bpuStepAt twice src dst s = .ok t) : KeptOutside s t dst 2 := by
  simp only [bpuStepAt, bind_eq_ok] at h
  obtain ⟨w, -, d, -, h⟩ := h
  obtain ⟨-, -, hkeep, -⟩ := store_spec h
  exact hkeep

/-- One word of a rectangle leaves the BPU's word at the destination (R150). -/
theorem bpuStepAt_of_load {ws wd w : Word16} {b : Nat} (hs : s.load16 src = .ok ws) (hd : s.load16 dst = .ok wd)
    (hb : Config.bpuResult s.bpu (if twice then [ws, ws] else [ws]) wd = (w, b)) :
    ∃ t, bpuStepAt twice src dst s = .ok t ∧ t.load16 dst = .ok w ∧ t.bpu = b := by
  obtain ⟨x, hx, -⟩ := load16_eq_ok.1 hd
  obtain ⟨t, ht⟩ := store_of_fits { s with bpu := b } (w.setWidth 64) (fits_of_load hx (by decide))
  refine ⟨t, ?_, load16_store16_same ht, by rw [(store_spec ht).1]⟩
  rw [bpuStepAt, hs, ok_bind, hd, ok_bind]
  simp only [hb]
  exact ht

/-- Two states whose BPU is in one state, and whose bytes are the same but for the `n` bytes from `a` on. -/
structure SameBpuBut (a : Dword) (n : Nat) (s t : State) : Prop where
  bpu : s.bpu = t.bpu
  memory : SameBut a n s t

/-- A word of a rectangle reads and writes clear of where two memories differ. -/
theorem bothAnswer_bpuStepAt (h : SameBpuBut p m s t) (hsrc : Apart src 2 p m) (hdst : Apart dst 2 p m) :
    BothAnswer (SameBpuBut p m) (bpuStepAt twice src dst s) (bpuStepAt twice src dst t) := by
  obtain ⟨hbpu, hmemory⟩ := h
  have hload : ∀ a, Apart a 2 p m → s.load16 a = t.load16 a := fun a ha => by
    rw [State.load16, load_of_sameBut hmemory ha, State.load16]
  rw [bpuStepAt, bpuStepAt, hload src hsrc, hload dst hdst, hbpu]
  refine bothAnswer_bind_same _ fun w _ => bothAnswer_bind_same _ fun d _ => ?_
  have hsame : ∀ b, SameBut p m { s with bpu := b } { t with bpu := b } := fun _ => hmemory
  refine (bothAnswer_store_sameBut (hsame _)).imp_both fun a b ha hb hab => ⟨?_, hab⟩
  rw [(store_spec ha).1, (store_spec hb).1]

end

/-! ### The addresses and the width -/

/-- The address that a pointer, with its warp, has at word `k` of line `j` of a rectangle `n` words wide: it moves between the
words only (D11). -/
def extbltAddress (n : Nat) (s : State) (pointer warp : Reg) (j k : Nat) : Dword :=
  s.reg pointer + wordOffset (n - 1) (s.reg .r4) (s.reg warp) j k

section
variable {s u : State} {n j k m : Nat} {pointer warp : Reg}

theorem extbltAddress_zero : extbltAddress n s pointer warp 0 0 = s.reg pointer := by
  rw [extbltAddress, wordOffset_zero, BitVec.add_zero]

theorem extbltAddress_succ :
    extbltAddress n s pointer warp j k + s.reg .r4 = extbltAddress n s pointer warp j (k + 1) := by
  rw [extbltAddress, BitVec.add_assoc, wordOffset_succ, extbltAddress]

theorem extbltAddress_line (hk : k + 1 = n) :
    extbltAddress n s pointer warp j k + s.reg warp = extbltAddress n s pointer warp (j + 1) 0 := by
  obtain rfl : k = n - 1 := by omega
  rw [extbltAddress, BitVec.add_assoc, wordOffset_line, extbltAddress]

theorem extbltAddress_congr (h : ∀ r, u.reg r = s.reg r) : extbltAddress n u = extbltAddress n s := by
  funext pointer warp j k
  simp only [extbltAddress, h]

/-- Word `k` of line `j` of the rectangle that EXTBLT does from a state. -/
def extbltRectWord (n : Nat) (s : State) (j k : Nat) : State → Res State :=
  bpuStepAt (k == 0 && !s.flag .l) (extbltAddress n s .r0 .r6 j k) (extbltAddress n s .r1 .r7 j k)

theorem extbltRectWord_congr (h : ∀ r, u.reg r = s.reg r) (hl : u.flag .l = s.flag .l) :
    extbltRectWord n u = extbltRectWord n s := by
  funext j k
  rw [extbltRectWord, extbltRectWord, extbltAddress_congr h, hl]

/-- What EXTBLT wants of the increment in R4 (R147 item 2). -/
def IsIncrement (step : Dword) : Prop := step = 2#32 ∨ step = 0xFFFFFFFE#32

/-- The width that is left in R5 with `m` words to come. -/
def widthLeft (step : Dword) (m : Nat) : Dword := BitVec.ofNat 32 m * step

theorem widthLeft_succ_sub (step : Dword) (m : Nat) : widthLeft step (m + 1) - step = widthLeft step m := by
  rw [widthLeft, BitVec.ofNat_add, BitVec.add_mul, BitVec.one_mul, BitVec.add_sub_cancel, widthLeft]

theorem widthLeft_zero (step : Dword) : widthLeft step 0 = 0#32 := BitVec.zero_mul

theorem toNat_widthLeft_two (m : Nat) : (widthLeft 2#32 m).toNat = 2 * m % 2 ^ 32 := by
  rw [widthLeft, BitVec.toNat_mul, BitVec.toNat_ofNat, Nat.mod_mul_mod, Nat.mul_comm]
  rfl

theorem widthLeft_neg_two (m : Nat) : widthLeft 0xFFFFFFFE#32 m = -widthLeft 2#32 m := by
  rw [widthLeft, widthLeft, ← BitVec.mul_neg]
  rfl

theorem widthLeft_ne_zero {step : Dword} (hstep : IsIncrement step) (h0 : m ≠ 0) (hm : m < 2 ^ 31) :
    widthLeft step m ≠ 0#32 := by
  have htwo : widthLeft 2#32 m ≠ 0#32 := by
    intro hzero
    have hnat := congrArg BitVec.toNat hzero
    rw [toNat_widthLeft_two, BitVec.toNat_ofNat] at hnat
    omega
  rcases hstep with rfl | rfl
  · exact htwo
  · rw [widthLeft_neg_two]
    exact fun h => htwo (BitVec.neg_eq_zero_iff.1 h)

/-- An even width of the increment's sign is a count of words (R147 item 3). -/
theorem width_eq_widthLeft {x step : Dword} (hstep : IsIncrement step) (heven : x.toNat % 2 = 0)
    (hsign : x.toInt < 0 ↔ step.toInt < 0) : x = widthLeft step (x.toInt.natAbs / 2) := by
  have hlt := x.isLt
  have hint := BitVec.toInt_eq_toNat_cond x
  refine BitVec.eq_of_toNat_eq ?_
  rcases hstep with rfl | rfl
  · have hx : ¬x.toInt < 0 := fun h => absurd (hsign.1 h) (by decide)
    rw [toNat_widthLeft_two]
    omega
  · have hx : x.toInt < 0 := hsign.2 (by decide)
    rw [widthLeft_neg_two, BitVec.toNat_neg, toNat_widthLeft_two]
    omega

end

/-! ### A run of EXTBLT beside a run over the rectangle -/

/-- What EXTBLT may change before FP is restored: R0, R1, R3 and R5, which are at these values, the BPU, memory, and the list
that goes with it. -/
def ExtbltFrameAt (s : State) (src dst height width : Dword) (t : State) : Prop :=
  t = { s with regs := { s.regs with r0 := src, r1 := dst, r3 := height, r5 := width }, bpu := t.bpu, mem := t.mem,
               unflushed := t.unflushed }

/-- The words of a rectangle are clear of the double-word at `p`. -/
def ClearOf (p : Dword) (h n : Nat) (s : State) : Prop :=
  ∀ j < h, ∀ k < n, Apart (extbltAddress n s .r0 .r6 j k) 2 p 4 ∧ Apart (extbltAddress n s .r1 .r7 j k) 2 p 4

theorem ClearOf.congr {p : Dword} {h n : Nat} {s u : State} (hclear : ClearOf p h n s) (hreg : ∀ r, u.reg r = s.reg r) :
    ClearOf p h n u := by
  rw [ClearOf, extbltAddress_congr hreg]
  exact hclear

/-- EXTBLT, from `s` on, has come to word `k` of line `j` with this height and width left, and to the BPU and the memory of `u`
but for the double-word at SP, which it keeps. -/
structure ExtbltAt (n : Nat) (s : State) (j k : Nat) (height width : Dword) (t u : State) : Prop where
  frame : ExtbltFrameAt s (extbltAddress n s .r0 .r6 j k) (extbltAddress n s .r1 .r7 j k) height width t
  same : SameBpuBut s.sp 4 t u
  saved : t.load32 s.sp = s.load32 s.sp

section
variable {s t u : State} {n j k m h fuel : Nat} {height width : Dword}

theorem ExtbltAt.reg (hat : ExtbltAt n s j k height width t u) {r : Reg} (hr : r ∉ [Reg.r0, .r1, .r3, .r5]) :
    t.reg r = s.reg r := by
  rw [hat.frame]
  cases r with
  | r0 | r1 | r3 | r5 => simp at hr
  | r2 | r4 | r6 | r7 => rfl

theorem ExtbltAt.r3 (hat : ExtbltAt n s j k height width t u) : t.reg .r3 = height := by rw [hat.frame]; rfl

theorem ExtbltAt.r5 (hat : ExtbltAt n s j k height width t u) : t.reg .r5 = width := by rw [hat.frame]; rfl

theorem ExtbltAt.setWidth (hat : ExtbltAt n s j k height width t u) (v : Dword) :
    ExtbltAt n s j k height v (t.setReg .r5 v) u where
  frame := by
    have hframe := hat.frame
    rw [ExtbltFrameAt] at hframe ⊢
    rw [hframe]
    rfl
  same := ⟨hat.same.bpu, hat.same.memory⟩
  saved := hat.saved

theorem ExtbltAt.move (hat : ExtbltAt n s j k height width t u) :
    ExtbltAt n s j (k + 1) height width (movePointers (s.reg .r4) t) u where
  frame := by
    have hframe := hat.frame
    rw [ExtbltFrameAt] at hframe ⊢
    rw [hframe, ← extbltAddress_succ, ← extbltAddress_succ]
    rfl
  same := ⟨hat.same.bpu, hat.same.memory⟩
  saved := hat.saved

theorem ExtbltAt.endLine (hat : ExtbltAt n s j k height width t u) (hk : k + 1 = n) :
    ExtbltAt n s (j + 1) 0 (height - 1#32) width (endLine t) u where
  frame := by
    have hframe := hat.frame
    rw [ExtbltFrameAt] at hframe ⊢
    rw [hframe, ← extbltAddress_line hk, ← extbltAddress_line hk]
    rfl
  same := ⟨hat.same.bpu, hat.same.memory⟩
  saved := hat.saved

/-- One word. -/
theorem ExtbltAt.word (hclear : ClearOf s.sp h n s) (hj : j < h) (hk : k < n) (hat : ExtbltAt n s j k height width t u) :
    BothAnswer (ExtbltAt n s j k height width) (extbltWord (k == 0) t) (extbltRectWord n s j k u) := by
  obtain ⟨hframe, hsame, hsaved⟩ := hat
  obtain ⟨hsrc, hdst⟩ := hclear j hj k hk
  have hr0 : t.reg .r0 = extbltAddress n s .r0 .r6 j k := by rw [hframe]; rfl
  have hr1 : t.reg .r1 = extbltAddress n s .r1 .r7 j k := by rw [hframe]; rfl
  have hl : t.flag .l = s.flag .l := by rw [hframe]; rfl
  have hword := extbltWord_eq (k == 0) t
  rw [hr0, hr1, hl] at hword
  rw [hword]
  refine (bothAnswer_bpuStepAt hsame hsrc hdst).imp fun t' u' ht' hsame' => ⟨?_, hsame', ?_⟩
  · have hspec := extbltWord_spec (hword.trans ht')
    rw [ExtbltFrameAt] at hframe ⊢
    rw [hspec, hframe]
  · rw [← hsaved]
    exact load32_congr_bytes _ fun a hlow hhigh => keptOutside_bpuStepAt ht' a fun hin =>
      not_inRange_of_apart hdst hin ⟨hlow, hhigh⟩

/-- A word and what follows it: the pointers do not move after the last (D11, log 11). -/
theorem extbltWords_succ (fuel : Nat) (first : Bool) (s : State) : extbltWords (fuel + 1) first s =
    (extbltWord first s >>= fun t =>
      if t.reg .r5 - t.reg .r4 = 0#32 then .ok (t.setReg .r5 (t.reg .r5 - t.reg .r4))
      else extbltWords fuel false (movePointers (t.reg .r4) (t.setReg .r5 (t.reg .r5 - t.reg .r4)))) := rfl

/-- The words of a line from word `k` on; `m` follow it. -/
theorem ExtbltAt.words (hclear : ClearOf s.sp h n s) (hstep : IsIncrement (s.reg .r4)) (hn31 : n < 2 ^ 31) (hj : j < h)
    (hn : k + m + 1 = n) (hfuel : m < fuel) (hat : ExtbltAt n s j k height (widthLeft (s.reg .r4) (m + 1)) t u) :
    BothAnswer (ExtbltAt n s j (k + m) height 0#32) (extbltWords fuel (k == 0) t)
      ((List.range' k (m + 1)).foldlM (fun u k => extbltRectWord n s j k u) u) := by
  induction fuel generalizing k m t u with
  | zero => omega
  | succ fuel ih =>
    rw [extbltWords_succ, List.range'_succ, List.foldlM_cons]
    refine (hat.word hclear hj (by omega)).bind fun t' u' _ _ hword => ?_
    rw [hword.r5, hword.reg (by decide), widthLeft_succ_sub]
    have hcount := hword.setWidth (widthLeft (s.reg .r4) m)
    cases m with
    | zero =>
      rw [widthLeft_zero] at hcount ⊢
      rw [if_pos rfl]
      exact hcount
    | succ m =>
      rw [if_neg (widthLeft_ne_zero hstep (by omega) (by omega)), show k + (m + 1) = k + 1 + m by omega]
      exact ih (by omega) (by omega) hcount.move

/-- What EXTBLT wants of the increment and the width, for lines of `n` words (R147). -/
structure ExtbltWidth (n : Nat) (s : State) : Prop where
  step : IsIncrement (s.reg .r4)
  width : s.reg .r2 = widthLeft (s.reg .r4) n
  fuel : n ≤ (s.reg .r2).toInt.natAbs
  pos : 0 < n
  small : n < 2 ^ 31

theorem ExtbltWidth.congr (hw : ExtbltWidth n s) (hreg : ∀ r, u.reg r = s.reg r) : ExtbltWidth n u where
  step := hreg .r4 ▸ hw.step
  width := by rw [hreg, hreg]; exact hw.width
  fuel := hreg .r2 ▸ hw.fuel
  pos := hw.pos
  small := hw.small

/-- One line, up to its end; the width in R5 before it is of no matter. -/
theorem ExtbltAt.line (hw : ExtbltWidth n s) (hclear : ClearOf s.sp h n s) (hj : j < h)
    (hat : ExtbltAt n s j 0 height width t u) :
    BothAnswer (fun t' u' => ExtbltAt n s (j + 1) 0 (height - 1#32) 0#32 (Machine.endLine t') u')
      (extbltWords (t.reg .r2).toInt.natAbs true (t.setReg .r5 (t.reg .r2)))
      ((List.range n).foldlM (fun u k => extbltRectWord n s j k u) u) := by
  obtain ⟨hstep, hwidth, hfuel, hpos, hsmall⟩ := hw
  obtain ⟨last, rfl⟩ : ∃ last, n = last + 1 := ⟨n - 1, by omega⟩
  have hstart := hat.setWidth (t.reg .r2)
  rw [hat.reg (by decide), hwidth] at hstart ⊢
  rw [hwidth] at hfuel
  rw [List.range_eq_range']
  have hwords := hstart.words hclear hstep hsmall hj (by omega) hfuel
  exact hwords.imp fun t' u' _ hend => hend.endLine (by omega)

/-- A line and what follows it. -/
theorem extbltLines_succ (m : Nat) (s : State) : extbltLines (m + 1) s =
    (extbltWords (s.reg .r2).toInt.natAbs true (s.setReg .r5 (s.reg .r2)) >>= fun t =>
      if (endLine t).reg .r3 = 0#32 then .ok (endLine t) else extbltLines m (endLine t)) := rfl

theorem ofNat_ne_zero (h0 : m ≠ 0) (hm : m < 2 ^ 32) : BitVec.ofNat 32 m ≠ 0#32 := by
  intro hzero
  have hnat := congrArg BitVec.toNat hzero
  simp only [BitVec.toNat_ofNat] at hnat
  omega

/-- All lines (R148). -/
theorem ExtbltAt.lines (hw : ExtbltWidth n s) (hclear : ClearOf s.sp h n s) (hj : j + (m + 1) = h) (hm : m + 1 < 2 ^ 32)
    (hat : ExtbltAt n s j 0 (BitVec.ofNat 32 (m + 1)) width t u) :
    BothAnswer (ExtbltAt n s h 0 0#32 0#32) (extbltLines (m + 1) t)
      ((List.range' j (m + 1)).foldlM (fun u j => (List.range n).foldlM (fun u k => extbltRectWord n s j k u) u) u) := by
  induction m generalizing j width t u with
  | zero =>
    obtain rfl : j + 1 = h := hj
    rw [extbltLines_succ, List.range'_succ, List.foldlM_cons]
    refine (hat.line hw hclear (by omega)).bind fun t' u' _ _ hline => ?_
    rw [ofNat_succ_sub_one] at hline
    rw [if_pos hline.r3]
    exact hline
  | succ m ih =>
    rw [extbltLines_succ, List.range'_succ, List.foldlM_cons]
    refine (hat.line hw hclear (by omega)).bind fun t' u' _ _ hline => ?_
    rw [ofNat_succ_sub_one] at hline
    rw [if_neg (by rw [hline.r3]; exact ofNat_ne_zero (by omega) (by omega))]
    exact ih (by omega) (by omega) hline

/-- The lines from a state on are the rectangle of that state, done on a memory that may differ at SP. -/
theorem bothAnswer_extbltLines (hw : ExtbltWidth n s) (h0 : s.reg .r3 ≠ 0#32)
    (hclear : ClearOf s.sp (s.reg .r3).toNat n s) (hsame : SameBpuBut s.sp 4 s u) :
    BothAnswer (ExtbltAt n s (s.reg .r3).toNat 0 0#32 0#32) (extbltLines (s.reg .r3).toNat s)
      (forRectangle (s.reg .r3).toNat n (extbltRectWord n s) u) := by
  have hstart : ExtbltAt n s 0 0 (BitVec.ofNat 32 (s.reg .r3).toNat) (s.reg .r5) s u := by
    refine ⟨?_, hsame, rfl⟩
    rw [ExtbltFrameAt, extbltAddress_zero, extbltAddress_zero, BitVec.ofNat_toNat, BitVec.setWidth_eq]
    rfl
  have hlt := (s.reg .r3).isLt
  rw [forRectangle, List.range_eq_range' (n := (s.reg .r3).toNat)]
  obtain ⟨m, hm⟩ : ∃ m, (s.reg .r3).toNat = m + 1 :=
    Nat.exists_eq_succ_of_ne_zero fun hzero => h0 (BitVec.eq_of_toNat_eq hzero)
  rw [hm] at hclear hstart hlt ⊢
  exact hstart.lines hw hclear (Nat.zero_add _) hlt

end

end Sys2Proof.Proofs
end

section
/-! PROOFS about EXTBLT (O52), second part: the instruction, from the rectangle of the state it begins in. -/

namespace Sys2Proof.Proofs

open Sys2Proof.Machine Sys2Proof.Claims

/-- All that EXTBLT does where its lines end at these addresses: R3 and R5 are 0, NBPU is deasserted (R148, R152). -/
def ExtbltEndsAt (s : State) (src dst : Dword) (t : State) : Prop :=
  t = State.advance { s with regs := { s.regs with r0 := src, r1 := dst, r3 := 0#32, r5 := 0#32 }, nbpu := false,
                             bpu := t.bpu, mem := t.mem, unflushed := t.unflushed } .extblt

theorem ExtbltEndsAt.kept {s t : State} {src dst : Dword} (h : ExtbltEndsAt s src dst t) :
    t.nbpu = false ∧ t.reg .r0 = src ∧ t.reg .r1 = dst ∧ t.reg .r3 = 0#32 ∧ t.reg .r5 = 0#32 ∧
      KeptRegs s t [.r0, .r1, .r3, .r5] ∧ t.fp = s.fp ∧ KeptStacks s t ∧ t.psr = s.psr ∧ t.pc = s.pc + 3#32 := by
  rw [h]
  refine ⟨rfl, rfl, rfl, rfl, rfl, fun r hr => ?_, rfl, ⟨rfl, rfl⟩, rfl, rfl⟩
  cases r with
  | r0 | r1 | r3 | r5 => simp at hr
  | r2 | r4 | r6 | r7 => rfl

/-- The state that the lines begin in: NBPU is asserted (R152). -/
def assertNbpu (s : State) : State := { s with nbpu := true }

theorem reg_assertNbpu (s : State) (r : Reg) : (assertNbpu s).reg r = s.reg r := rfl
theorem sp_assertNbpu (s : State) : (assertNbpu s).sp = s.sp := rfl
theorem flag_assertNbpu (s : State) (fl : Flag) : (assertNbpu s).flag fl = s.flag fl := rfl
theorem load32_assertNbpu (s : State) (a : Dword) : (assertNbpu s).load32 a = s.load32 a := load32_congr rfl a

theorem bpu_push32 {s p : State} {v : Dword} (h : s.push32 v = .ok p) : p.bpu = s.bpu := by
  rw [(push32_spec h).1]
  exact bpu_setSp s _

/-- What EXTBLT does, step by step (R148). -/
theorem exec_extblt_eq (s : State) : exec .extblt s = finish (extbltReady s >>= fun _ => s.push32 s.fp >>= fun p =>
    extbltLines (p.reg .r3).toNat (assertNbpu p) >>= fun w => State.pop32 { w with nbpu := false } >>= fun x =>
    .ok (State.advance { x.2 with fp := x.1 } .extblt)) := rfl

/-- FP is saved before the lines, which NBPU is asserted for, and restored after them. -/
theorem exec_extblt {s p w : State} {src dst : Dword} (hready : extbltReady s = .ok ()) (hpush : s.push32 s.fp = .ok p)
    (hlines : extbltLines (p.reg .r3).toNat (assertNbpu p) = .ok w)
    (hframe : ExtbltFrameAt (assertNbpu p) src dst 0#32 0#32 w) (hsaved : w.load32 w.sp = .ok s.fp) :
    ∃ t, exec .extblt s = .next t ∧ t.mem = w.mem ∧ t.bpu = w.bpu ∧ ExtbltEndsAt s src dst t := by
  have hrestore : State.setSp { w with nbpu := false } (State.sp { w with nbpu := false } + 4#32) =
      { w with nbpu := false, sp0 := s.sp0, sp1 := s.sp1 } :=
    setSp_of_push32 hpush (by rw [hframe]; rfl) (by rw [hframe]; rfl) (by rw [hframe]; rfl)
  have hpop : State.pop32 { w with nbpu := false } = .ok (s.fp, { w with nbpu := false, sp0 := s.sp0, sp1 := s.sp1 }) :=
    pop32_eq_ok.2 ⟨(load32_congr rfl _).trans hsaved, hrestore.symm⟩
  refine ⟨State.advance { w with nbpu := false, sp0 := s.sp0, sp1 := s.sp1, fp := s.fp } .extblt, ?_, rfl, rfl, ?_⟩
  · rw [exec_extblt_eq, hready, ok_bind, hpush, ok_bind, hlines, ok_bind, hpop, ok_bind, finish_ok]
  · have hp := (push32_spec hpush).1
    rw [ExtbltFrameAt] at hframe
    rw [ExtbltEndsAt, hframe, assertNbpu, hp]
    simp [State.advance, State.setPc]

/-- The preconditions (R147). -/
theorem extbltReady_ok {s : State} (h4 : IsIncrement (s.reg .r4)) (h2 : s.reg .r2 ≠ 0#32) (heven : (s.reg .r2).toNat % 2 = 0)
    (hsign : (s.reg .r2).toInt < 0 ↔ (s.reg .r4).toInt < 0) (h3 : s.reg .r3 ≠ 0#32)
    (hr0 : (s.reg .r0).toNat % 2 = 0) (hr1 : (s.reg .r1).toNat % 2 = 0) (hr6 : (s.reg .r6).toNat % 2 = 0)
    (hr7 : (s.reg .r7).toNat % 2 = 0) : extbltReady s = .ok () := by
  rw [extbltReady_of_width h4 h2 heven hsign, require_bind_of_true (by simpa using h3)]
  simp only [getLsbD_zero_eq, hr0, hr1, hr6, hr7]
  rfl

/-- The width of a line in words (R147 item 3). -/
theorem extbltWidth_of_even {s : State} {n : Nat} (h4 : IsIncrement (s.reg .r4)) (h2 : s.reg .r2 ≠ 0#32)
    (heven : (s.reg .r2).toNat % 2 = 0) (hsign : (s.reg .r2).toInt < 0 ↔ (s.reg .r4).toInt < 0)
    (hn : n = (s.reg .r2).toInt.natAbs / 2) : ExtbltWidth n s := by
  have hint := BitVec.toInt_eq_toNat_cond (s.reg .r2)
  have hlt := (s.reg .r2).isLt
  have hne : (s.reg .r2).toNat ≠ 0 := fun hzero => h2 (BitVec.eq_of_toNat_eq hzero)
  exact ⟨h4, hn ▸ width_eq_widthLeft h4 heven hsign, by omega, by omega, by omega⟩

/-! ### Completion -/

/-- EXTBLT completes where the rectangle of its state does, with its words clear of the pushed FP. -/
theorem extblt_of_forRectangle {s u : State} {n : Nat} (hready : extbltReady s = .ok ()) (hw : ExtbltWidth n s)
    (h0 : s.reg .r3 ≠ 0#32) (hlow : 4 ≤ s.sp.toNat) (hhigh : s.sp.toNat ≤ 2 ^ 24)
    (hclear : ClearOf (s.sp - 4#32) (s.reg .r3).toNat n s)
    (hu : forRectangle (s.reg .r3).toNat n (extbltRectWord n s) s = .ok u) :
    ∃ t, exec .extblt s = .next t ∧ t.bpu = u.bpu ∧ ExtbltEndsAt s (extbltAddress n s .r0 .r6 (s.reg .r3).toNat 0)
        (extbltAddress n s .r1 .r7 (s.reg .r3).toNat 0) t ∧
      ∀ k, ¬InRange k (s.sp - 4#32) 4 → Memory.read t.mem k = Memory.read u.mem k := by
  obtain ⟨p, hpush⟩ := push32_of_fits s s.fp (by bv_omega)
  have hreg : ∀ r, (assertNbpu p).reg r = s.reg r := fun r => (reg_assertNbpu p r).trans (reg_push32 hpush r)
  have hsp : (assertNbpu p).sp = s.sp - 4#32 := (sp_assertNbpu p).trans (sp_push32 hpush)
  have hl : (assertNbpu p).flag .l = s.flag .l := (flag_assertNbpu p .l).trans (flag_push32 hpush .l)
  have hsame : SameBpuBut (assertNbpu p).sp 4 (assertNbpu p) s := by
    have hbpu : p.bpu = s.bpu := bpu_push32 hpush
    have hmemory : SameBut (s.sp - 4#32) 4 p s := sameBut_push32 hpush
    rw [hsp]
    exact ⟨hbpu, hmemory⟩
  have hlines := bothAnswer_extbltLines (hw.congr hreg) (hreg .r3 ▸ h0) (by rw [hsp, hreg]; exact hclear.congr hreg) hsame
  rw [extbltRectWord_congr hreg hl, hreg] at hlines
  obtain ⟨w, hw, hat⟩ := hlines.of_right hu
  have hsaved : w.load32 w.sp = .ok s.fp := by
    have hwsp : w.sp = (assertNbpu p).sp := by rw [hat.frame]; rfl
    rw [hwsp, hat.saved, hsp, load32_assertNbpu, load32_push32 hpush]
  obtain ⟨t, ht, hmem, hbpu, hends⟩ :=
    exec_extblt hready hpush (by rw [reg_push32 hpush]; exact hw) hat.frame hsaved
  rw [extbltAddress_congr hreg] at hends
  refine ⟨t, ht, hbpu.trans hat.same.bpu, hends, fun k hk => ?_⟩
  rw [hmem]
  exact hat.same.memory k (by rw [hsp]; exact hk)

/-- The rectangle of one word: each pointer moves by its warp only (D11). -/
theorem extblt_of_word {s u : State} (hready : extbltReady s = .ok ()) (hw : ExtbltWidth 1 s) (hone : s.reg .r3 = 1#32)
    (hlow : 4 ≤ s.sp.toNat) (hhigh : s.sp.toNat ≤ 2 ^ 24) (hsrc : Apart (s.reg .r0) 2 (s.sp - 4#32) 4)
    (hdst : Apart (s.reg .r1) 2 (s.sp - 4#32) 4) (hu : bpuStepAt (!s.flag .l) (s.reg .r0) (s.reg .r1) s = .ok u) :
    ∃ t, exec .extblt s = .next t ∧ t.bpu = u.bpu ∧
      ExtbltEndsAt s (s.reg .r0 + s.reg .r6) (s.reg .r1 + s.reg .r7) t ∧
      ∀ k, ¬InRange k (s.sp - 4#32) 4 → Memory.read t.mem k = Memory.read u.mem k := by
  have hheight : (s.reg .r3).toNat = 1 := by rw [hone]; rfl
  have hclear : ClearOf (s.sp - 4#32) (s.reg .r3).toNat 1 s := by
    intro j hj k hk
    obtain rfl : j = 0 := by omega
    obtain rfl : k = 0 := by omega
    rw [extbltAddress_zero, extbltAddress_zero]
    exact ⟨hsrc, hdst⟩
  have hrect : forRectangle (s.reg .r3).toNat 1 (extbltRectWord 1 s) s = .ok u := by
    rw [hheight, forRectangle_one, extbltRectWord, extbltAddress_zero, extbltAddress_zero]
    exact hu
  obtain ⟨t, ht, hbpu, hends, hmem⟩ := extblt_of_forRectangle hready hw (by rw [hone]; decide) hlow hhigh hclear hrect
  rw [hheight, ← extbltAddress_line (Nat.zero_add 1), ← extbltAddress_line (Nat.zero_add 1), extbltAddress_zero,
    extbltAddress_zero] at hends
  exact ⟨t, ht, hbpu, hends, hmem⟩

/-- A width that is the increment is one word. -/
theorem one_word_of_eq {x step : Dword} (hstep : IsIncrement step) (hx : x = step) :
    x ≠ 0#32 ∧ x.toNat % 2 = 0 ∧ 1 = x.toInt.natAbs / 2 := by
  rw [hx]
  rcases hstep with rfl | rfl <;> decide

/-- Settles O52: the rectangle of one word, and any rectangle, by `extblt_of_forRectangle`. -/
theorem extbltOneWord : Obligations.ExtbltOneWord := by
  intro s h4 hr0 hr1 hr6 hr7 hlow hhigh
  refine ⟨fun ws wd w b h2 h3 hsrc hdst hws hwd hb => ?_, ?_⟩
  · obtain ⟨hne, heven, hwords⟩ := one_word_of_eq h4 h2
    have hsign : (s.reg .r2).toInt < 0 ↔ (s.reg .r4).toInt < 0 := by rw [h2]
    have h3ne : s.reg .r3 ≠ 0#32 := by rw [h3]; decide
    obtain ⟨u, hu, huw, hub⟩ := bpuStepAt_of_load (twice := !s.flag .l) (b := b) (w := w) hws hwd (by
      rw [← hb]
      cases s.flag .l <;> rfl)
    obtain ⟨t, ht, hbpu, hends, hmem⟩ := extblt_of_word (extbltReady_ok h4 hne heven hsign h3ne hr0 hr1 hr6 hr7)
      (extbltWidth_of_even h4 hne heven hsign hwords) h3 hlow hhigh hsrc hdst hu
    obtain ⟨hnbpu, ht0, ht1, ht3, ht5, hregs, hfp, hstacks, hpsr, hpc⟩ := hends.kept
    refine ⟨t, ht, ?_, hbpu.trans hub, hnbpu, ht0, ht1, ht3, ht5, hregs, hfp, hstacks, hpsr, hpc, fun k hkdst hksp => ?_⟩
    · rw [← huw]
      exact load16_congr_bytes _ fun a hlo hhi => hmem a (not_inRange_of_apart hdst ⟨hlo, hhi⟩)
    · rw [hmem k hksp]
      exact keptOutside_bpuStepAt hu k hkdst
  · intro h n src dst u h2 heven hsign hn hh h0 hsrc hdst hclear hu
    obtain rfl : src = extbltAddress n s .r0 .r6 := by funext j k; exact hsrc j k
    obtain rfl : dst = extbltAddress n s .r1 .r7 := by funext j k; exact hdst j k
    subst hh
    have h3 : s.reg .r3 ≠ 0#32 := fun hzero => h0 (by rw [hzero]; rfl)
    have hwidth := extbltWidth_of_even h4 h2 heven hsign hn
    obtain ⟨t, ht, hbpu, hends, hmem⟩ :=
      extblt_of_forRectangle (extbltReady_ok h4 h2 heven hsign h3 hr0 hr1 hr6 hr7) hwidth h3 hlow hhigh hclear hu
    obtain ⟨hnbpu, ht0, ht1, ht3, ht5, hregs, hfp, hstacks, hpsr, hpc⟩ := hends.kept
    exact ⟨t, ht, hbpu, hnbpu, ht0, ht1, ht3, ht5, hregs, hfp, hstacks, hpsr, hpc, hmem⟩

end Sys2Proof.Proofs
end

section
/-! PROOFS about MOVMPi (O53): its elements, and the byte that the last of them leaves. -/

namespace Sys2Proof.Proofs

open Sys2Proof.Machine Sys2Proof.Claims

/-! ### The elements -/

/-- The address of element `k` of a pattern: R0 moves by R1 after each (R162). -/
def patternAddress (s : State) (k : Nat) : Dword := s.reg .r0 + BitVec.ofNat 32 k * s.reg .r1

/-- Byte `j` of the pattern in R3 (R163 to R165). -/
def patternByte (s : State) (j : Nat) : Byte := (s.reg .r3).extractLsb' (8 * j) 8

/-- The state after an element is stored: R0 has moved and R2 has counted it. -/
def nextElement (s : State) : State :=
  (s.setReg .r0 (s.reg .r0 + s.reg .r1)).setReg .r2 (s.reg .r2 - 1#32)

section
variable {s t u : State} {bytes n : Nat}

theorem patternAddress_zero (s : State) : patternAddress s 0 = s.reg .r0 := by
  rw [patternAddress, BitVec.zero_mul, BitVec.add_zero]

theorem patternAddress_nextElement (s : State) (k : Nat) :
    patternAddress (nextElement s) k = patternAddress s (k + 1) := by
  change s.reg .r0 + s.reg .r1 + BitVec.ofNat 32 k * s.reg .r1 = patternAddress s (k + 1)
  rw [patternAddress, BitVec.ofNat_add, BitVec.add_mul, BitVec.one_mul, BitVec.add_assoc,
    BitVec.add_comm (s.reg .r1)]

/-- An element and what follows it. -/
theorem patternLoop_succ (bytes n : Nat) (s : State) : patternLoop bytes (n + 1) s =
    (s.store bytes (s.reg .r0) ((s.reg .r3).setWidth 64) >>= fun u => patternLoop bytes n (nextElement u)) := rfl

/-- A stored element holds the bytes of the pattern, the lowest first. -/
theorem read_store_pattern {a : Dword} {k : Nat} (h : s.store bytes a ((s.reg .r3).setWidth 64) = .ok u)
    (hk : InRange k a bytes) : Memory.read u.mem k = patternByte s (k - a.toNat) := by
  obtain ⟨hlow, hhigh⟩ := hk
  obtain ⟨j, rfl⟩ := Nat.exists_eq_add_of_le hlow
  obtain ⟨-, -, -, hbytes, -⟩ := store_spec h
  rw [hbytes j (by omega), Nat.add_sub_cancel_left, patternByte]
  apply BitVec.eq_of_getLsbD_eq
  intro i hi
  rw [BitVec.getLsbD_setWidth, BitVec.getLsbD_ushiftRight, BitVec.getLsbD_setWidth, BitVec.getLsbD_extractLsb']
  by_cases h64 : 8 * j + i < 64
  · simp [h64]
  · rw [BitVec.getLsbD_of_ge (s.reg .r3) _ (by omega)]
    simp

/-! ### The loop -/

/-- What laying down `n` elements does: R0 and R2 move, a byte of no element stays, and a byte of an element is as the last
that covers it lays it down (R162, R167). -/
structure PatternWritten (bytes n : Nat) (s t : State) : Prop where
  frame : t = { s with regs := { s.regs with r0 := patternAddress s n, r2 := s.reg .r2 - BitVec.ofNat 32 n },
                       mem := t.mem, unflushed := t.unflushed }
  outside : ∀ a, (∀ k < n, ¬InRange a (patternAddress s k) bytes) → Memory.read t.mem a = Memory.read s.mem a
  last : ∀ a, ∀ k < n, InRange a (patternAddress s k) bytes →
    (∀ j, k < j → j < n → ¬InRange a (patternAddress s j) bytes) →
    Memory.read t.mem a = patternByte s (a - (patternAddress s k).toNat)

theorem patternWritten_zero (bytes : Nat) (s : State) : PatternWritten bytes 0 s s where
  frame := by rw [patternAddress_zero, BitVec.sub_zero]; rfl
  outside _ _ := rfl
  last _ _ hk := absurd hk (Nat.not_lt_zero _)

/-- The first element, and then the others: a byte of the first that no other covers keeps what the first laid down. -/
theorem PatternWritten.cons (hu : s.store bytes (s.reg .r0) ((s.reg .r3).setWidth 64) = .ok u)
    (h : PatternWritten bytes n (nextElement u) t) : PatternWritten bytes (n + 1) s t := by
  obtain ⟨hframe, houtside, hlast⟩ := h
  obtain ⟨hstore, -, hkept, -⟩ := store_spec hu
  have haddr : ∀ k, patternAddress (nextElement u) k = patternAddress s (k + 1) := fun k => by
    rw [hstore]
    exact patternAddress_nextElement s k
  have hpattern : patternByte (nextElement u) = patternByte s := by rw [hstore]; rfl
  have hcount : (nextElement u).reg .r2 - BitVec.ofNat 32 n = s.reg .r2 - BitVec.ofNat 32 (n + 1) := by
    change u.reg .r2 - 1#32 - BitVec.ofNat 32 n = _
    rw [hstore, sub_sub, BitVec.add_comm, ← BitVec.ofNat_add]
    rfl
  simp only [haddr, hpattern] at houtside hlast
  refine ⟨?_, fun a hout => ?_, fun a k hk hin hnone => ?_⟩
  · rw [haddr, hcount, hstore] at hframe
    exact hframe
  · have hfirst := hout 0 (by omega)
    rw [patternAddress_zero] at hfirst
    calc Memory.read t.mem a = Memory.read u.mem a := houtside a fun k hk => hout (k + 1) (by omega)
      _ = Memory.read s.mem a := hkept a hfirst
  · cases k with
    | zero =>
      rw [patternAddress_zero] at hin ⊢
      calc Memory.read t.mem a = Memory.read u.mem a := houtside a fun j hj => hnone (j + 1) (by omega) (by omega)
        _ = patternByte s (a - (s.reg .r0).toNat) := read_store_pattern hu hin
    | succ k => exact hlast a k (by omega) hin fun j hkj hj => hnone (j + 1) (by omega) (by omega)

/-- The loop completes when every element lies below 2^24. -/
theorem patternLoop_of_fits (h : ∀ k < n, Fits (patternAddress s k) bytes) :
    ∃ t, patternLoop bytes n s = .ok t ∧ PatternWritten bytes n s t := by
  induction n generalizing s with
  | zero => exact ⟨s, rfl, patternWritten_zero bytes s⟩
  | succ n ih =>
    have hfirst := h 0 (by omega)
    rw [patternAddress_zero] at hfirst
    obtain ⟨u, hu⟩ := store_of_fits s ((s.reg .r3).setWidth 64) hfirst
    obtain ⟨t, ht, hwritten⟩ := ih (s := nextElement u) fun k hk => by
      rw [(store_spec hu).1]
      exact (patternAddress_nextElement s k).symm ▸ h (k + 1) (by omega)
    exact ⟨t, by rw [patternLoop_succ, hu, ok_bind, ht], hwritten.cons hu⟩

end

/-! ### The statement -/

/-- The three rows are one operation, of three bytes of code. -/
theorem exec_movmp {n : Nat} {i : Instr} (hi : (n, i) ∈ [(1, Instr.movmpb), (2, .movmpw), (4, .movmpd)]) (s : State) :
    exec i s = movmpOp i n s ∧ i.size = 3 := by
  simp only [List.mem_cons, Prod.mk.injEq, List.not_mem_nil, or_false] at hi
  rcases hi with ⟨rfl, rfl⟩ | ⟨rfl, rfl⟩ | ⟨rfl, rfl⟩ <;> exact ⟨rfl, rfl⟩

/-- Settles O53: all R2 elements laid down, by induction on how many. -/
theorem movmpResult : Obligations.MovmpResult := by
  intro n i s el hi hel hfits
  obtain rfl : el = patternAddress s := funext hel
  obtain ⟨hexec, hsize⟩ := exec_movmp hi s
  obtain ⟨t, ht, hframe, houtside, hlast⟩ := patternLoop_of_fits hfits
  have hnext : exec i s = .next (t.advance i) := by rw [hexec, movmpOp, ht]; rfl
  have hr2 : s.reg .r2 - BitVec.ofNat 32 (s.reg .r2).toNat = 0#32 := by
    rw [BitVec.ofNat_toNat, BitVec.setWidth_eq, BitVec.sub_self]
  have hr0 : patternAddress s (s.reg .r2).toNat = s.reg .r0 + s.reg .r2 * s.reg .r1 := by
    rw [patternAddress, BitVec.ofNat_toNat, BitVec.setWidth_eq]
  rw [hr2, hr0] at hframe
  refine ⟨t.advance i, hnext, ?_⟩
  rw [State.advance, hsize]
  refine ⟨?_, ?_, fun r hr => ?_, ?_, ?_, ?_, ?_, houtside, hlast⟩ <;> rw [hframe]
  · rfl
  · rfl
  · cases r with
    | r0 | r2 => simp at hr
    | r1 | r3 | r4 | r5 | r6 | r7 => rfl
  · rfl
  · exact ⟨rfl, rfl⟩
  · exact ⟨rfl, rfl, rfl, rfl, rfl, rfl, rfl, rfl, rfl, rfl, rfl⟩
  · rfl

end Sys2Proof.Proofs
end

section
/-! PROOFS about SBITS (O54) and SBITPS (O55): the table's entry laid over the destination, and the bits set one by one. -/

namespace Sys2Proof.Proofs

open Sys2Proof.Machine Sys2Proof.Claims

/-! ### SBITS -/

/-- A bit's place in its byte is the remainder that the spec writes MOD (R12). -/
theorem natCast_bitPos (off : Dword) : (bitPos off : Int) = off.toInt % 8 :=
  Int.toNat_of_nonneg (Int.emod_nonneg _ (by decide))

/-- The entry of the table, with the offset's remainder as an integer (R171). -/
theorem sbitsEntry_eq (s : State) : sbitsEntry s =
    s.reg .r3 + 4#32 * (s.reg .r2 + 32#32 * BitVec.ofInt 32 ((s.reg .r1).toInt % 8)) := by
  rw [sbitsEntry, ← natCast_bitPos, BitVec.ofInt_natCast]

section
variable {s t u : State} {d x : Dword}

/-- A run too long for the table: the destination is read and F reports it (R171). -/
theorem exec_sbits_long (h : 25 < (s.reg .r2).toNat) (hd : s.load32 (bitByte (s.reg .r0) (s.reg .r1)) = .ok d) :
    exec .sbits s = .next ((s.setFlag .f true).setPc (s.pc + 3#32)) := by
  change finish (if 25#32 < s.reg .r2 then s.load32 _ >>= _ else _) = _
  rw [if_pos (show 25#32 < s.reg .r2 from h), hd]
  rfl

/-- A run of the table: its entry is ORed into the destination (R171). -/
theorem exec_sbits_short (h : (s.reg .r2).toNat ≤ 25) (hx : s.load32 (sbitsEntry s) = .ok x)
    (hd : s.load32 (bitByte (s.reg .r0) (s.reg .r1)) = .ok d)
    (hu : s.store32 (bitByte (s.reg .r0) (s.reg .r1)) (d ||| x) = .ok u) :
    exec .sbits s = .next ((u.setFlag .f false).advance .sbits) := by
  change finish (if 25#32 < s.reg .r2 then _ else s.load32 (sbitsEntry s) >>= fun x =>
    s.load32 (bitByte (s.reg .r0) (s.reg .r1)) >>= fun d => s.store32 (bitByte (s.reg .r0) (s.reg .r1)) (d ||| x) >>= _) = _
  rw [if_neg (BitVec.not_lt.2 (BitVec.le_def.2 h)), hx, ok_bind, hd, ok_bind, hu]
  rfl

/-- A double-word that can be read can be written. -/
theorem store32_of_load32 {a : Dword} (v : Dword) (hd : s.load32 a = .ok d) : ∃ u, s.store32 a v = .ok u := by
  obtain ⟨w, hw, -⟩ := load32_eq_ok.1 hd
  exact store_of_fits s (v.setWidth 64) (fits_of_load hw (by decide))

end

/-- Settles O54: the two cases of the run length. -/
theorem sbitsResult : Obligations.SbitsResult := by
  rintro s a e d x rfl rfl hd
  refine ⟨fun hshort hx => ?_, fun hlong => exec_sbits_long hlong hd⟩
  obtain ⟨u, hu⟩ := store32_of_load32 (d ||| x) hd
  rw [← sbitsEntry_eq] at hx
  obtain ⟨hframe, -, hkept, -⟩ := store_spec hu
  have hread : u.load32 (bitByte (s.reg .r0) (s.reg .r1)) = .ok (d ||| x) := load32_store32_same hu
  have hpsr : u.psr = s.psr := by rw [hframe]
  refine ⟨_, exec_sbits_short hshort hx hd hu, (load32_congr rfl _).trans hread, hkept,
    flag_setFlag_same u .f false, keptPsr_putFlag (congrArg (putFlag · .f false) hpsr), ?_⟩
  rw [hframe]
  exact ⟨rfl, ⟨rfl, rfl⟩, ⟨rfl, rfl, rfl, rfl, rfl, rfl, rfl, rfl, rfl, rfl, rfl⟩, rfl⟩

/-! ### The bits of SBITPS -/

/-- Offset `k` of a perpendicular line: R1 moves by the warp in R3 after each bit (R178). -/
def warpOffset (s : State) (k : Nat) : Dword := s.reg .r1 + BitVec.ofNat 32 k * s.reg .r3

/-- The place of the bit at an offset from the base in R0. -/
def offsetBit (s : State) (off : Dword) : BitLoc := .mem (bitByte (s.reg .r0) off) (bitPos off)

/-- The state after a bit is set: R1 has moved and R2 has counted it. -/
def nextBit (s : State) : State :=
  (s.setReg .r1 (s.reg .r1 + s.reg .r3)).setReg .r2 (s.reg .r2 - 1#32)

section
variable {s t u : State} {n : Nat}

theorem warpOffset_zero (s : State) : warpOffset s 0 = s.reg .r1 := by
  rw [warpOffset, BitVec.zero_mul, BitVec.add_zero]

theorem warpOffset_nextBit (s : State) (k : Nat) : warpOffset (nextBit s) k = warpOffset s (k + 1) := by
  change s.reg .r1 + s.reg .r3 + BitVec.ofNat 32 k * s.reg .r3 = warpOffset s (k + 1)
  rw [warpOffset, BitVec.ofNat_add, BitVec.add_mul, BitVec.one_mul, BitVec.add_assoc, BitVec.add_comm (s.reg .r3)]

/-- A bit set, and what follows it. -/
theorem perpendicularLoop_succ (n : Nat) (s : State) : perpendicularLoop (n + 1) s =
    ((offsetBit s (s.reg .r1)).write true s >>= fun u => perpendicularLoop n (nextBit u)) := by
  rw [offsetBit, BitLoc.write, bind_assoc]
  rfl

/-- Bit `j` of the byte at `a` is the one at this offset from R0. -/
def IsOffsetBit (s : State) (off : Dword) (a j : Nat) : Prop :=
  (bitByte (s.reg .r0) off).toNat = a ∧ (j : Int) = off.toInt % 8

/-- Writing a bit of memory changes memory and the list of unflushed bytes only: that bit is 1, and every other is as it
was. -/
theorem write_offsetBit {off : Dword} (s : State) (h : (bitByte (s.reg .r0) off).toNat < 2 ^ 24) :
    ∃ u, (offsetBit s off).write true s = .ok u ∧ u = { s with mem := u.mem, unflushed := u.unflushed } ∧
      ∀ a j, j < 8 → ((Memory.read u.mem a).getLsbD j = true ↔
        (Memory.read s.mem a).getLsbD j = true ∨ IsOffsetBit s off a j) := by
  refine ⟨_, writeBit_mem s _ true h, rfl, fun a j hj => ?_⟩
  rw [read_write, IsOffsetBit, ← natCast_bitPos, Nat.cast_inj]
  by_cases ha : a = (bitByte (s.reg .r0) off).toNat
  · subst ha
    rw [if_pos rfl, getLsbD_putBit _ _ _ hj]
    by_cases hpos : j = bitPos off <;> simp [hpos]
  · simp [ha, Ne.symm ha]

/-- What setting `n` bits does: R1 and R2 move, and a bit of memory is 1 where it was or where it is one of them (R178). -/
structure BitsSet (n : Nat) (s t : State) : Prop where
  frame : t = { s with regs := { s.regs with r1 := warpOffset s n, r2 := s.reg .r2 - BitVec.ofNat 32 n },
                       mem := t.mem, unflushed := t.unflushed }
  bits : ∀ a j, j < 8 → ((Memory.read t.mem a).getLsbD j = true ↔
    (Memory.read s.mem a).getLsbD j = true ∨ ∃ k < n, IsOffsetBit s (warpOffset s k) a j)

theorem bitsSet_zero (s : State) : BitsSet 0 s s where
  frame := by rw [warpOffset_zero, BitVec.sub_zero]; rfl
  bits a j _ := by simp

/-- The first bit, and then the others. -/
theorem BitsSet.cons (hframe : u = { s with mem := u.mem, unflushed := u.unflushed })
    (hbit : ∀ a j, j < 8 → ((Memory.read u.mem a).getLsbD j = true ↔
      (Memory.read s.mem a).getLsbD j = true ∨ IsOffsetBit s (s.reg .r1) a j))
    (h : BitsSet n (nextBit u) t) : BitsSet (n + 1) s t := by
  have hoff : ∀ k, warpOffset (nextBit u) k = warpOffset s (k + 1) := fun k => by
    rw [hframe]
    exact warpOffset_nextBit s k
  have hbase : IsOffsetBit (nextBit u) = IsOffsetBit s := by rw [hframe]; rfl
  have hcount : (nextBit u).reg .r2 - BitVec.ofNat 32 n = s.reg .r2 - BitVec.ofNat 32 (n + 1) := by
    change u.reg .r2 - 1#32 - BitVec.ofNat 32 n = _
    rw [hframe, sub_sub, BitVec.add_comm, ← BitVec.ofNat_add]
    rfl
  obtain ⟨hrest, hbits⟩ := h
  constructor
  · rw [hoff, hcount, hframe] at hrest
    exact hrest
  · intro a j hj
    have hmem : (nextBit u).mem = u.mem := rfl
    rw [hbits a j hj, hmem, hbit a j hj, Nat.exists_lt_succ_left, warpOffset_zero, or_assoc, hbase]
    simp only [hoff]

/-- The loop completes when every addressed byte lies below 2^24. -/
theorem perpendicularLoop_of_fits (h : ∀ k < n, (bitByte (s.reg .r0) (warpOffset s k)).toNat < 2 ^ 24) :
    ∃ t, perpendicularLoop n s = .ok t ∧ BitsSet n s t := by
  induction n generalizing s with
  | zero => exact ⟨s, rfl, bitsSet_zero s⟩
  | succ n ih =>
    have hfirst := h 0 (by omega)
    rw [warpOffset_zero] at hfirst
    obtain ⟨u, hu, hframe, hbit⟩ := write_offsetBit s hfirst
    obtain ⟨t, ht, hset⟩ := ih (s := nextBit u) fun k hk => by
      rw [hframe]
      exact (warpOffset_nextBit s k).symm ▸ h (k + 1) (by omega)
    exact ⟨t, by rw [perpendicularLoop_succ, hu, ok_bind, ht], hset.cons hframe hbit⟩

end

/-- Settles O55: all R2 bits set, by induction on how many. -/
theorem sbitpsResult : Obligations.SbitpsResult := by
  intro s off byte hoff hbyte hfits
  obtain rfl : off = warpOffset s := funext hoff
  obtain rfl : byte = fun k => bitByte (s.reg .r0) (warpOffset s k) := funext hbyte
  obtain ⟨t, ht, hframe, hbits⟩ := perpendicularLoop_of_fits hfits
  have hnext : exec .sbitps s = .next (t.advance .sbitps) := by
    change finish (perpendicularLoop _ s >>= _) = _
    rw [ht]
    rfl
  rw [warpOffset, BitVec.ofNat_toNat, BitVec.setWidth_eq, BitVec.sub_self] at hframe
  refine ⟨_, hnext, ?_, ?_, fun r hr => ?_, ?_, ?_, ?_, ?_, hbits⟩ <;> rw [hframe]
  · rfl
  · rfl
  · cases r with
    | r1 | r2 => simp at hr
    | r0 | r3 | r4 | r5 | r6 | r7 => rfl
  · rfl
  · exact ⟨rfl, rfl⟩
  · exact ⟨rfl, rfl, rfl, rfl, rfl, rfl, rfl, rfl, rfl, rfl, rfl⟩
  · rfl

end Sys2Proof.Proofs
end

section
/-! PROOFS about TBITS (O56): what is known at each bit, and where the test ends. -/

namespace Sys2Proof.Proofs

open Sys2Proof.Machine Sys2Proof.Claims

/-! ### Counting bits -/

/-- The bit at an offset from the base in R0. -/
def bitAtOffset (s : State) (off : Dword) : Bool := (Memory.read s.mem (bitByte (s.reg .r0) off).toNat).getLsbD (bitPos off)

/-- Bit `k` of the string that starts at the offset in R1. -/
def stringBit (s : State) (k : Nat) : Bool := bitAtOffset s (s.reg .r1 + BitVec.ofNat 32 k)

/-- The byte that holds bit `k` of the string. -/
def stringByte (s : State) (k : Nat) : Dword := bitByte (s.reg .r0) (s.reg .r1 + BitVec.ofNat 32 k)

/-- The state after a bit is counted into R1 and R2 (R183). -/
def countBit (s : State) : State :=
  (s.setReg .r1 (s.reg .r1 + 1#32)).setReg .r2 (s.reg .r2 + 1#32)

section
variable {ones : Bool} {s t u : State} {m n : Nat}

/-- A bit is tested (D15): one that differs ends the test, and after an equal one the run length is compared and then the
bit offset. -/
theorem testLoop_succ (n : Nat) (hfit : (bitByte (s.reg .r0) (s.reg .r1)).toNat < 2 ^ 24) : testLoop ones (n + 1) s =
    if bitAtOffset s (s.reg .r1) ≠ ones then .ok ((s.setFlag .f (bitAtOffset s (s.reg .r1))).setFlag .l true)
    else
      let u := countBit (s.setFlag .f (bitAtOffset s (s.reg .r1)))
      if s.reg .r3 ≤ s.reg .r2 + 1#32 then .ok (u.setFlag .l true)
      else if (s.reg .r4).sle (s.reg .r1 + 1#32) then .ok (u.setFlag .l false)
      else testLoop ones n u := by
  rw [testLoop, loadByte_of_lt s hfit]
  rfl

/-- `m` bits from the start of the string have been counted: they are equal to the option, and none but perhaps the last has
brought R2 to the run length or R1 to the maximum offset. -/
structure BitsCounted (ones : Bool) (s : State) (m : Nat) (t : State) : Prop where
  frame : t = { s with regs := { s.regs with r1 := s.reg .r1 + BitVec.ofNat 32 m, r2 := s.reg .r2 + BitVec.ofNat 32 m },
                       psr := t.psr }
  flags : KeptPsr s t [.f, .l]
  equal : ∀ k < m, stringBit s k = ones
  short : ∀ k, 1 ≤ k → k < m → s.reg .r2 + BitVec.ofNat 32 k < s.reg .r3
  below : (s.reg .r1).toInt + m ≤ (s.reg .r4).toInt

/-- The test goes on at the bit after those counted: neither limit is reached. -/
def GoesOn (s : State) (m : Nat) : Prop :=
  (s.reg .r1).toInt + m < (s.reg .r4).toInt ∧ (1 ≤ m → s.reg .r2 + BitVec.ofNat 32 m < s.reg .r3)

/-- The three ends of the test, on a differing bit, on the run length and on the bit offset (R186). -/
def TestEnds (ones : Bool) (s : State) (m : Nat) (t : State) : Prop :=
  (t.flag .l = true ∧ t.flag .f = !ones ∧ stringBit s m = !ones ∧ GoesOn s m) ∨
  (t.flag .l = true ∧ t.flag .f = ones ∧ 1 ≤ m ∧ s.reg .r3 ≤ s.reg .r2 + BitVec.ofNat 32 m) ∨
  (t.flag .l = false ∧ t.flag .f = ones ∧ 1 ≤ m ∧ s.reg .r2 + BitVec.ofNat 32 m < s.reg .r3 ∧
    s.reg .r1 + BitVec.ofNat 32 m = s.reg .r4)

theorem bitsCounted_zero (h : (s.reg .r1).toInt ≤ (s.reg .r4).toInt) : BitsCounted ones s 0 s where
  frame := by rw [BitVec.add_zero, BitVec.add_zero]; rfl
  flags _ _ := rfl
  equal _ hk := absurd hk (Nat.not_lt_zero _)
  short _ _ hk := absurd hk (Nat.not_lt_zero _)
  below := by omega

/-- The next bit to test is the one after those counted. -/
theorem BitsCounted.bit (h : BitsCounted ones s m t) : bitAtOffset t (t.reg .r1) = stringBit s m := by
  rw [h.frame]
  rfl

theorem BitsCounted.byte (h : BitsCounted ones s m t) : bitByte (t.reg .r0) (t.reg .r1) = stringByte s m := by
  rw [h.frame]
  rfl

/-- F and L are not of what is counted. -/
theorem BitsCounted.setFlag {fl : Flag} (hfl : fl ∈ [Flag.f, .l]) (h : BitsCounted ones s m t) (b : Bool) :
    BitsCounted ones s m (t.setFlag fl b) where
  frame := by rw [h.frame]; rfl
  flags k hk := ((flagsOnly_setFlag hfl t b).psr k hk).trans (h.flags k hk)
  equal := h.equal
  short := h.short
  below := h.below

/-- One more bit equal to the option. -/
theorem BitsCounted.countBit (h : BitsCounted ones s m t) (hgo : GoesOn s m) (hbit : stringBit s m = ones) :
    BitsCounted ones s (m + 1) (countBit t) where
  frame := by
    rw [h.frame, BitVec.ofNat_add, ← BitVec.add_assoc, ← BitVec.add_assoc]
    rfl
  flags := h.flags
  equal k hk := by
    rcases Nat.lt_succ_iff_lt_or_eq.1 hk with hk | rfl
    · exact h.equal k hk
    · exact hbit
  short k h1 hk := by
    rcases Nat.lt_succ_iff_lt_or_eq.1 hk with hk | rfl
    · exact h.short k h1 hk
    · exact hgo.2 h1
  below := by
    have := hgo.1
    omega

/-! ### The loop -/

/-- An offset that has not passed the maximum has not wrapped. -/
theorem toInt_add_ofNat {x y : Dword} (h : x.toInt + m ≤ y.toInt) : (x + BitVec.ofNat 32 m).toInt = x.toInt + m := by
  have hlow : -2 ^ 31 ≤ x.toInt := BitVec.le_toInt x
  have hhigh : y.toInt < 2 ^ 31 := BitVec.toInt_lt
  rw [BitVec.toInt_add, BitVec.toInt_ofNat', Int.add_bmod_bmod]
  exact Int.bmod_eq_of_le (by omega) (by omega)

/-- How far the maximum offset lies above the starting one. -/
theorem toInt_add_toNat_sub {x y : Dword} (h : x.toInt < y.toInt) : x.toInt + (y - x).toNat = y.toInt := by
  rw [BitVec.toInt_eq_toNat_cond, BitVec.toInt_eq_toNat_cond] at *
  rw [BitVec.toNat_sub]
  have hx := x.isLt
  have hy := y.isLt
  split at * <;> split at * <;> omega

/-- A round that meets a differing bit. -/
theorem testLoop_of_ne (n : Nat) (hfit : (stringByte s m).toNat < 2 ^ 24) (h : BitsCounted ones s m u)
    (hbit : stringBit s m = !ones) : testLoop ones (n + 1) u = .ok ((u.setFlag .f (!ones)).setFlag .l true) := by
  rw [testLoop_succ n (by rw [h.byte]; exact hfit), h.bit, hbit, if_pos (by simp)]

/-- A round that meets an equal bit counts it, and compares with the limits (R183, D15). -/
theorem testLoop_of_eq (n : Nat) (hfit : (stringByte s m).toNat < 2 ^ 24) (h : BitsCounted ones s m u)
    (hbit : stringBit s m = ones) : testLoop ones (n + 1) u =
      if s.reg .r3 ≤ s.reg .r2 + BitVec.ofNat 32 (m + 1) then .ok ((countBit (u.setFlag .f ones)).setFlag .l true)
      else if (s.reg .r4).toInt ≤ (s.reg .r1 + BitVec.ofNat 32 (m + 1)).toInt then
        .ok ((countBit (u.setFlag .f ones)).setFlag .l false)
      else testLoop ones n (countBit (u.setFlag .f ones)) := by
  have hr1 : u.reg .r1 + 1#32 = s.reg .r1 + BitVec.ofNat 32 (m + 1) := by
    rw [h.frame, BitVec.ofNat_add, ← BitVec.add_assoc]; rfl
  have hr2 : u.reg .r2 + 1#32 = s.reg .r2 + BitVec.ofNat 32 (m + 1) := by
    rw [h.frame, BitVec.ofNat_add, ← BitVec.add_assoc]; rfl
  have hr3 : u.reg .r3 = s.reg .r3 := by rw [h.frame]; rfl
  have hr4 : u.reg .r4 = s.reg .r4 := by rw [h.frame]; rfl
  rw [testLoop_succ n (by rw [h.byte]; exact hfit), h.bit, hbit, if_neg (not_not.2 rfl), hr1, hr2, hr3, hr4]
  simp only [BitVec.sle_iff_toInt_le]

/-- The flags after an end at an equal bit. -/
theorem flags_countBit (u : State) (f l : Bool) : ((countBit (u.setFlag .f f)).setFlag .l l).flag .l = l ∧
    ((countBit (u.setFlag .f f)).setFlag .l l).flag .f = f :=
  ⟨flag_setFlag_same .., (flag_setFlag_ne _ _ (by decide)).trans (flag_setFlag_same u .f f)⟩

/-- One round of the loop ends the test, or else counts a bit and goes on. -/
theorem testLoop_of_goesOn (n : Nat) (hfit : (stringByte s m).toNat < 2 ^ 24) (hgo : GoesOn s m)
    (h : BitsCounted ones s m u) :
    (∃ t p, testLoop ones (n + 1) u = .ok t ∧ BitsCounted ones s p t ∧ TestEnds ones s p t) ∨
    (∃ v, testLoop ones (n + 1) u = testLoop ones n v ∧ BitsCounted ones s (m + 1) v ∧ GoesOn s (m + 1)) := by
  by_cases hbit : stringBit s m = ones
  · have hcount := (h.setFlag (fl := .f) (by decide) ones).countBit hgo hbit
    have hint := toInt_add_ofNat hcount.below
    rw [testLoop_of_eq n hfit h hbit]
    by_cases hlen : s.reg .r3 ≤ s.reg .r2 + BitVec.ofNat 32 (m + 1)
    · obtain ⟨hl, hf⟩ := flags_countBit u ones true
      exact .inl ⟨_, _, if_pos hlen, hcount.setFlag (by decide) true, .inr (.inl ⟨hl, hf, by omega, hlen⟩)⟩
    rw [if_neg hlen]
    have hshort := BitVec.not_le.1 hlen
    by_cases hmax : (s.reg .r4).toInt ≤ (s.reg .r1 + BitVec.ofNat 32 (m + 1)).toInt
    · obtain ⟨hl, hf⟩ := flags_countBit u ones false
      have heq := BitVec.eq_of_toInt_eq ((hint.trans_le hcount.below).antisymm hmax)
      exact .inl ⟨_, _, if_pos hmax, hcount.setFlag (by decide) false, .inr (.inr ⟨hl, hf, by omega, hshort, heq⟩)⟩
    · exact .inr ⟨_, if_neg hmax, hcount, by omega, fun _ => hshort⟩
  · have hdiffers := Bool.eq_not.2 hbit
    exact .inl ⟨_, m, testLoop_of_ne n hfit h hdiffers,
      (h.setFlag (fl := .f) (by decide) _).setFlag (by decide) true, .inl ⟨flag_setFlag_same ..,
        (flag_setFlag_ne _ _ (by decide)).trans (flag_setFlag_same u .f _), hdiffers, hgo⟩⟩

/-- With `n` bits left before the maximum offset, `n` rounds of the loop end the test. -/
theorem testLoop_of_bitsCounted (hfits : ∀ k : Nat, (s.reg .r1).toInt + k < (s.reg .r4).toInt →
      (stringByte s k).toNat < 2 ^ 24)
    (hn : (s.reg .r1).toInt + m + n = (s.reg .r4).toInt) (hgo : GoesOn s m) (h : BitsCounted ones s m u) :
    ∃ t p, testLoop ones n u = .ok t ∧ BitsCounted ones s p t ∧ TestEnds ones s p t := by
  induction n generalizing m u with
  | zero =>
    have := hgo.1
    omega
  | succ n ih =>
    rcases testLoop_of_goesOn n (hfits m hgo.1) hgo h with hend | ⟨v, hv, hcounted, hnext⟩
    · exact hend
    · rw [hv]
      exact ih (by push_cast at hn ⊢; omega) hnext hcounted

/-! ### The statement -/

/-- With R1 at or beyond R4 no bit is tested (R183, D15). -/
theorem exec_tbits_beyond (h : (s.reg .r4).toInt ≤ (s.reg .r1).toInt) :
    exec (.tbits ones) s = .next (((s.setFlag .l false).setFlag .f ones).setPc (s.pc + 3#32)) := by
  change finish (if (s.reg .r4).sle (s.reg .r1) = true then _ else testLoop _ _ _ >>= _) = _
  rw [if_pos (BitVec.sle_iff_toInt_le.2 h)]
  rfl

/-- With R1 below R4 the loop tests the bits. -/
theorem exec_tbits_below (h : (s.reg .r1).toInt < (s.reg .r4).toInt)
    (ht : testLoop ones (s.reg .r4 - s.reg .r1).toNat s = .ok t) :
    exec (.tbits ones) s = .next (t.advance (.tbits ones)) := by
  change finish (if (s.reg .r4).sle (s.reg .r1) = true then _ else testLoop _ _ _ >>= _) = _
  rw [if_neg (by rw [BitVec.sle_iff_toInt_le]; omega), ht]
  rfl

end

/-- Settles O56: no bit is counted at first, and the loop ends the test. -/
theorem tbitsResult : Obligations.TbitsResult := by
  intro ones s bitAt hbits hfits
  obtain rfl : bitAt = stringBit s := funext hbits
  refine ⟨exec_tbits_beyond, fun hlt => ?_⟩
  have hleft : (s.reg .r1).toInt + (0 : Nat) + (s.reg .r4 - s.reg .r1).toNat = (s.reg .r4).toInt := by
    rw [Nat.cast_zero, add_zero, toInt_add_toNat_sub hlt]
  obtain ⟨t, m, ht, ⟨hframe, hflags, hequal, hshort, hbelow⟩, hends⟩ :=
    testLoop_of_bitsCounted (ones := ones) hfits hleft ⟨by omega, by omega⟩ (bitsCounted_zero hlt.le)
  have hr1 : t.reg .r1 = s.reg .r1 + BitVec.ofNat 32 m := by rw [hframe]; rfl
  have hr2 : t.reg .r2 = s.reg .r2 + BitVec.ofNat 32 m := by rw [hframe]; rfl
  rw [TestEnds, ← hr1, ← hr2, GoesOn, ← hr2] at hends
  refine ⟨_, m, exec_tbits_below hlt ht, hr1, hr2, fun r hr => ?_, ?_, hflags, ?_, ?_, ?_, hequal, hshort, hbelow, hends⟩
  · rw [hframe]
    cases r with
    | r1 | r2 => simp at hr
    | r0 | r3 | r4 | r5 | r6 | r7 => rfl
  all_goals rw [hframe]
  · rfl
  · exact ⟨rfl, rfl⟩
  · exact ⟨rfl, rfl, rfl, rfl, rfl, rfl, rfl, rfl, rfl, rfl, rfl⟩
  · rfl

end Sys2Proof.Proofs
end

section
/-! PROOFS about the integer arithmetic of the instruction list, first part: negation and absolute value (O22), products and
quotients (O23, O24). -/

namespace Sys2Proof.Proofs

open Sys2Proof.Machine Sys2Proof.Claims

/-! ### The skeletons, from the operands on -/

section

variable {i : Instr} {len : IntLen} {src dst : Gen} {s s1 t : State} {a b : IntVal len} {l : Loc}

theorem unaryOp_of_readInt {f : State → IntVal len → IntVal len × State} (hread : readInt len src s = .ok (a, s1))
    (hwrite : writeInt len dst (f s1 a).1 (f s1 a).2 = .ok t) :
    finish (unaryOp i len src dst s f) = .next (t.advance i) :=
  finish_eq_next.2 (unaryOp_eq_ok.2 ⟨a, s1, hread, t, hwrite, rfl⟩)

theorem binaryOp_of_readInt {f : State → IntVal len → IntVal len → IntVal len × State}
    (hread : readInt len src s = .ok (a, s1)) (hplace : place dst s1 = .ok l) (hb : l.readInt len s1 = .ok b)
    (hwrite : l.writeInt len (f s1 a b).1 (f s1 a b).2 = .ok t) :
    finish (binaryOp i len src dst s f) = .next (t.advance i) :=
  finish_eq_next.2 (binaryOp_eq_ok.2 ⟨a, s1, hread, l, hplace, b, hb, t, hwrite, rfl⟩)

/-- A division by a divisor that is not 0 is the two-operand skeleton (R431). -/
theorem divideOp_of_ne_zero {f : State → IntVal len → IntVal len → IntVal len × State}
    (hread : readInt len src s = .ok (a, s1)) (ha : a ≠ 0) (hplace : place dst s1 = .ok l)
    (hb : l.readInt len s1 = .ok b) (hwrite : l.writeInt len (f s1 a b).1 (f s1 a b).2 = .ok t) :
    divideOp i len src dst s f = .next (t.advance i) := by
  have hne : a ≠ 0#(lenBits len) := ha
  simp only [divideOp, hread, ok_bind, if_neg hne]
  exact binaryOp_of_readInt hread hplace hb hwrite

end

theorem lenBits_pos (len : IntLen) : 0 < lenBits len := by cases len <;> decide

/-! ### Signed values -/

theorem fitsSigned_iff {w : Nat} {v : Int} : fitsSigned w v = true ↔ -(2 : Int) ^ (w - 1) ≤ v ∧ v < 2 ^ (w - 1) := by
  simp only [fitsSigned, Bool.and_eq_true, decide_eq_true_eq]

theorem fitsSigned_toInt {w : Nat} (a : BitVec w) : fitsSigned w a.toInt = true :=
  fitsSigned_iff.2 ⟨BitVec.le_toInt a, BitVec.toInt_lt⟩

theorem eq_intMin_iff {w : Nat} (hw : 0 < w) {a : BitVec w} : a = BitVec.intMin w ↔ a.toInt = -(2 : Int) ^ (w - 1) := by
  rw [← BitVec.toInt_inj, BitVec.toInt_intMin_of_pos hw]

/-! ### Negation and absolute value -/

/-- 0 less the source overflows for the most negative number alone (R275). -/
theorem subOverflow_zero {w : Nat} (a : BitVec w) :
    subOverflow 0#w a false = decide (a.toInt = -(2 : Int) ^ (w - 1)) := by
  have hle := BitVec.le_toInt a
  have hlt := BitVec.toInt_lt (x := a)
  have hfits : fitsSigned w (0 - a.toInt) = true ↔ a.toInt ≠ -(2 : Int) ^ (w - 1) := by
    rw [fitsSigned_iff]
    omega
  rw [subOverflow, BitVec.toInt_zero, Bool.toNat_false, Int.ofNat_zero, Int.sub_zero, Bool.eq_iff_iff, Bool.not_eq_true',
    ← Bool.not_eq_true, hfits, decide_eq_true_eq, not_not]

theorem negResult_eq {w : Nat} (s : State) (a : BitVec w) : negResult s a =
    (-a, (s.setFlag .c (decide (a.toNat ≠ 0))).setFlag .f (decide (a.toInt = -(2 : Int) ^ (w - 1)))) := by
  have hborrow : subBorrow 0#w a false = decide (a.toNat ≠ 0) := by
    simp [subBorrow, Nat.pos_iff_ne_zero]
  rw [negResult, subResult, hborrow, subOverflow_zero, State.setCarryOverflow]
  simp

theorem ofNat_natAbs_toInt {w : Nat} (a : BitVec w) : (if a.msb then -a else a) = BitVec.ofNat w a.toInt.natAbs := by
  rw [← BitVec.ofInt_natCast, BitVec.msb_eq_toInt]
  by_cases h : a.toInt < 0
  · rw [Int.ofNat_natAbs_of_nonpos h.le, BitVec.ofInt_neg, BitVec.ofInt_toInt, if_pos (decide_eq_true h)]
  · rw [Int.natAbs_of_nonneg (by omega), BitVec.ofInt_toInt, decide_eq_false h, if_neg (by decide)]

theorem absResult_of_ne {w : Nat} (hw : 0 < w) (s : State) {a : BitVec w} (h : a.toInt ≠ -(2 : Int) ^ (w - 1)) :
    absResult s a = (BitVec.ofNat w a.toInt.natAbs, s.setFlag .f false) := by
  rw [absResult, if_neg (fun e => h ((eq_intMin_iff hw).1 e)), ofNat_natAbs_toInt]

/-- The absolute value of the most negative number is open (log entry 24). -/
theorem absResult_of_eq {w : Nat} (hw : 0 < w) (s : State) {a : BitVec w} (h : a.toInt = -(2 : Int) ^ (w - 1)) :
    absResult s a = (openValue w s, (drawn s).setFlag .f true) := by
  rw [absResult, if_pos ((eq_intMin_iff hw).2 h)]
  rfl

/-- Settles O22: each instruction's function of the source, in the two cases that ABSi has. -/
theorem unaryResult : Obligations.UnaryResult := by
  intro len src dst s s1 t a hread
  have hpos := lenBits_pos len
  refine ⟨fun hw => ?_, fun ha hw => ?_, fun ha hw => ?_, fun hw => ?_, fun hw => ?_⟩
  · exact unaryOp_of_readInt hread (by rwa [negResult_eq])
  · exact unaryOp_of_readInt hread (by rwa [absResult_of_ne hpos s1 ha])
  · exact unaryOp_of_readInt hread (by rwa [absResult_of_eq hpos s1 ha])
  · exact unaryOp_of_readInt (f := fun t a => (~~~a, t)) hread hw
  · exact unaryOp_of_readInt (f := fun t a => (a ^^^ 1#_, t)) hread hw

/-! ### Products and quotients -/

/-- A quotient that is the signed value of some word is that word. -/
theorem quotient_of_toInt {w : Nat} {r : BitVec w} {q : Int} (s : State) (h : r.toInt = q) : quotient q s = (r, s) := by
  subst h
  rw [quotient, if_pos (fitsSigned_toInt r), BitVec.ofInt_toInt]

/-- The one quotient that does not fit is open (log entry 25). -/
theorem quotient_overflow {w : Nat} (s : State) : quotient (2 ^ (w - 1)) s = (openValue w s, drawn s) := by
  have h : ¬fitsSigned w (2 ^ (w - 1)) = true := fun h => lt_irrefl _ (fitsSigned_iff.1 h).2
  rw [quotient, if_neg h]
  rfl

theorem ofInt_of_toInt {w : Nat} {r : BitVec w} {v : Int} (h : r.toInt = v) : BitVec.ofInt w v = r := by
  rw [← h, BitVec.ofInt_toInt]

theorem mul_of_toNat {w : Nat} {a b r : BitVec w} (h : r.toNat = a.toNat * b.toNat % 2 ^ w) : b * a = r := by
  rw [BitVec.mul_comm]
  exact BitVec.eq_of_toNat_eq (by rw [BitVec.toNat_mul, h])

theorem ne_zero_of_toInt_neg_one {w : Nat} {a : BitVec w} (h : a.toInt = -1) : a ≠ 0 := by
  rintro rfl
  simp at h

/-- Settles O23: the result is the word whose signed value the division computes; only the most negative number over -1 has
no such word. -/
theorem multiplyDivideResult : Obligations.MultiplyDivideResult := by
  intro len src dst s s1 t a b r l hread hplace hb
  refine ⟨fun hr hw => ?_, fun ha _ hw => ⟨fun hr => ?_, fun hr => ?_⟩, fun ha hw => ⟨fun hr => ?_, fun hr => ?_⟩,
    fun hmin hone hw => ?_⟩
  · exact binaryOp_of_readInt (f := fun t a b => (b * a, t)) hread hplace hb (by rwa [mul_of_toNat hr])
  · exact divideOp_of_ne_zero (f := fun t a b => quotient (b.toInt.tdiv a.toInt) t) hread ha hplace hb
      (by rwa [quotient_of_toInt s1 hr])
  · exact divideOp_of_ne_zero (f := fun t a b => quotient (b.toInt.fdiv a.toInt) t) hread ha hplace hb
      (by rwa [quotient_of_toInt s1 hr])
  · exact divideOp_of_ne_zero (f := fun t a b => (BitVec.ofInt _ (b.toInt.tmod a.toInt), t)) hread ha hplace hb
      (by rwa [ofInt_of_toInt hr])
  · exact divideOp_of_ne_zero (f := fun t a b => (BitVec.ofInt _ (b.toInt.fmod a.toInt), t)) hread ha hplace hb
      (by rwa [ofInt_of_toInt hr])
  · have htdiv : b.toInt.tdiv a.toInt = 2 ^ (lenBits len - 1) := by rw [hmin, hone]; simp
    have hfdiv : b.toInt.fdiv a.toInt = 2 ^ (lenBits len - 1) := by rw [hmin, hone]; simp
    have ha := ne_zero_of_toInt_neg_one hone
    exact ⟨divideOp_of_ne_zero (f := fun t a b => quotient (b.toInt.tdiv a.toInt) t) hread ha hplace hb
        (by rwa [htdiv, quotient_overflow]),
      divideOp_of_ne_zero (f := fun t a b => quotient (b.toInt.fdiv a.toInt) t) hread ha hplace hb
        (by rwa [hfdiv, quotient_overflow])⟩

/-! ### Double-length products and dividends -/

/-- The two words of a double-length value are its remainder and its quotient by 2 to the power of their width. -/
theorem halves_of_toNat {w : Nat} {p q : BitVec w} {n : Nat} (h : p.toNat + 2 ^ w * q.toNat = n) :
    BitVec.ofNat w n = p ∧ BitVec.ofNat w (n / 2 ^ w) = q := by
  have hp := p.isLt
  subst h
  constructor
  · apply BitVec.eq_of_toNat_eq
    rw [BitVec.toNat_ofNat, Nat.add_mul_mod_self_left, Nat.mod_eq_of_lt hp]
  · rw [Nat.add_mul_div_left _ _ (Nat.two_pow_pos w), Nat.div_eq_of_lt hp, Nat.zero_add, BitVec.ofNat_toNat,
      BitVec.setWidth_eq]

/-- A dividend that is a quotient word times the divisor plus a smaller remainder word. -/
theorem extendedQuotient_of_toNat {w : Nat} {p q : BitVec w} {n d : Nat} (s : State) (h : n = q.toNat * d + p.toNat)
    (hp : p.toNat < d) : extendedQuotient n d s = (q, p, s) := by
  have hdiv : n / d = q.toNat := by
    rw [h, Nat.mul_comm, Nat.mul_add_div (by omega), Nat.div_eq_of_lt hp, Nat.add_zero]
  have hmod : n % d = p.toNat := by
    rw [h, Nat.mul_comm, Nat.mul_add_mod, Nat.mod_eq_of_lt hp]
  rw [extendedQuotient, hdiv, hmod, if_pos q.isLt]
  simp

/-- A quotient that does not fit its half leaves both halves open (log entry 35). -/
theorem extendedQuotient_overflow {w : Nat} {n d : Nat} (s : State) (hd : 0 < d) (h : d * 2 ^ w ≤ n) :
    extendedQuotient (w := w) n d s = (openValue w s, openValue w (drawn s), drawn (drawn s)) := by
  have hge : ¬n / d < 2 ^ w := by
    rw [Nat.not_lt, Nat.le_div_iff_mul_le hd, Nat.mul_comm]
    exact h
  rw [extendedQuotient, if_neg hge]
  rfl

section

variable {len : IntLen} {src dst : Gen} {s s1 t u : State} {a lo hi p q : IntVal len} {l : Loc}

theorem exec_meii (hread : readInt len src s = .ok (a, s1)) (hplace : place dst s1 = .ok l)
    (hpair : readPair len l s1 = .ok (lo, hi)) (hp : p.toNat + 2 ^ lenBits len * q.toNat = lo.toNat * a.toNat)
    (hwrite : writePair len l p q s1 = .ok t) :
    exec (.meii len src dst) s = .next (t.advance (.meii len src dst)) := by
  obtain ⟨hlow, hhigh⟩ := halves_of_toNat hp
  simp only [exec, execMeii, hread, hplace, hpair, hlow, hhigh, hwrite, ok_bind, pure_eq_ok, finish_ok]

theorem exec_deii (hread : readInt len src s = .ok (a, s1)) (ha : a ≠ 0) (hplace : place dst s1 = .ok l)
    (hpair : readPair len l s1 = .ok (lo, hi))
    (hquot : extendedQuotient (lo.toNat + 2 ^ lenBits len * hi.toNat) a.toNat s1 = (q, p, u))
    (hwrite : writePair len l p q u = .ok t) :
    exec (.deii len src dst) s = .next (t.advance (.deii len src dst)) := by
  have hne : a ≠ 0#(lenBits len) := ha
  rw [Nat.add_comm, Nat.mul_comm] at hquot
  simp only [exec, execDeii, hread, if_neg hne, hplace, hpair, hquot, hwrite, ok_bind, pure_eq_ok, finish_ok]

end

/-- Settles O24: both halves of the product, and Euclid's division of both halves. -/
theorem extendedResult : Obligations.ExtendedResult := by
  intro len src dst s s1 t a lo hi p q l hread hplace hpair
  refine ⟨fun hw => ⟨fun hp => exec_meii hread hplace hpair hp hw, fun ha hn hp => ?_⟩, fun ha hn hw => ?_⟩
  · exact exec_deii hread ha hplace hpair (extendedQuotient_of_toNat s1 hn hp) hw
  · have hpos : 0 < a.toNat := Nat.pos_of_ne_zero (fun h => ha (BitVec.eq_of_toNat_eq h))
    exact exec_deii hread ha hplace hpair (extendedQuotient_overflow s1 hpos hn) hw

end Sys2Proof.Proofs
end

section
/-! PROOFS about the integer arithmetic of the instruction list, second part: shifts and rotations (O25), packed decimal
(O26). -/

namespace Sys2Proof.Proofs

open Sys2Proof.Machine Sys2Proof.Claims

/-! ### The count of a shift -/

/-- A count from -w to w shifts left where it is not negative, else right, by its magnitude. -/
theorem shiftResult_of_le {w : Nat} (left right : BitVec w → Nat → BitVec w) (s : State) {count : Byte} (v : BitVec w)
    (h : count.toInt.natAbs ≤ w) : shiftResult left right s count v =
      (if 0 ≤ count.toInt then left v count.toInt.natAbs else right v count.toInt.natAbs, s) := by
  rw [shiftResult, if_neg (by omega)]
  by_cases hneg : count.toInt < 0
  · have hmsb : count.msb = true := by rw [BitVec.msb_eq_toInt, decide_eq_true hneg]
    rw [if_pos hmsb, if_neg (by omega)]
  · have hmsb : count.msb = false := by rw [BitVec.msb_eq_toInt, decide_eq_false hneg]
    have hnat : count.toInt.natAbs = count.toNat := by rw [BitVec.toInt_eq_toNat_of_msb hmsb, Int.natAbs_natCast]
    rw [if_neg (by rw [hmsb]; decide), if_pos (by omega), hnat]

/-- A count that is not allowed leaves the result open (log entry 23). -/
theorem shiftResult_of_lt {w : Nat} (left right : BitVec w → Nat → BitVec w) (s : State) {count : Byte} (v : BitVec w)
    (h : w < count.toInt.natAbs) : shiftResult left right s count v = (openValue w s, drawn s) := by
  rw [shiftResult, if_pos h]
  rfl

theorem shiftOp_of_readInt {i : Instr} {len : IntLen} {cnt dst : Gen} {s s1 t : State} {n : Byte} {v : IntVal len} {l : Loc}
    {left right : IntVal len → Nat → IntVal len} (hread : readInt .b cnt s = .ok (n, s1)) (hplace : place dst s1 = .ok l)
    (hv : l.readInt len s1 = .ok v)
    (hwrite : l.writeInt len (shiftResult left right s1 n v).1 (shiftResult left right s1 n v).2 = .ok t) :
    shiftOp i len cnt dst s left right = .next (t.advance i) :=
  shiftOp_eq_next.2 ⟨n, s1, hread, l, hplace, v, hv, t, hwrite, rfl⟩

/-! ### Shifted values -/

/-- A logical shift multiplies or divides the unsigned value (R419). -/
theorem logicalShift_of_toNat {w : Nat} {v r : BitVec w} {c : Int}
    (h : (r.toNat : Int) = (if 0 ≤ c then (v.toNat : Int) * 2 ^ c.natAbs else (v.toNat : Int) / 2 ^ c.natAbs) % 2 ^ w) :
    (if 0 ≤ c then v <<< c.natAbs else v >>> c.natAbs) = r := by
  apply BitVec.eq_of_toNat_eq
  split at h
  · next hc =>
    rw [if_pos hc, BitVec.toNat_shiftLeft, Nat.shiftLeft_eq]
    exact_mod_cast h.symm
  · next hc =>
    have hlt : v.toNat / 2 ^ c.natAbs < 2 ^ w := (Nat.div_le_self _ _).trans_lt v.isLt
    have hnat : r.toNat = v.toNat / 2 ^ c.natAbs % 2 ^ w := by exact_mod_cast h
    rw [if_neg hc, BitVec.toNat_ushiftRight, Nat.shiftRight_eq_div_pow, hnat, Nat.mod_eq_of_lt hlt]

theorem shiftLeft_eq_ofInt {w : Nat} (v : BitVec w) (m : Nat) : v <<< m = BitVec.ofInt w (v.toInt * 2 ^ m) := by
  have hpow : BitVec.ofInt w (2 ^ m) = BitVec.twoPow w m := by
    apply BitVec.eq_of_toNat_eq
    rw [BitVec.toNat_twoPow, show (2 : Int) ^ m = ((2 ^ m : Nat) : Int) by norm_cast, BitVec.ofInt_natCast,
      BitVec.toNat_ofNat]
  rw [BitVec.ofInt_mul, BitVec.ofInt_toInt, hpow, BitVec.mul_twoPow_eq_shiftLeft]

theorem sshiftRight_eq_ofInt {w : Nat} (v : BitVec w) (m : Nat) : v.sshiftRight m = BitVec.ofInt w (v.toInt / 2 ^ m) := by
  have hdiv : (v.sshiftRight m).toInt = v.toInt / 2 ^ m := by
    rw [BitVec.toInt_sshiftRight, Int.shiftRight_eq_div_pow]
    norm_cast
  rw [← hdiv, BitVec.ofInt_toInt]

/-- Two integers that differ by a multiple of 2 to the power of the width are the same word. -/
theorem ofInt_congr {w : Nat} {x y : Int} (h : (x - y) % 2 ^ w = 0) : BitVec.ofInt w x = BitVec.ofInt w y := by
  apply BitVec.eq_of_toNat_eq
  rw [BitVec.toNat_ofInt, BitVec.toNat_ofInt]
  have hmod : x % 2 ^ w = y % 2 ^ w := Int.emod_eq_emod_iff_emod_sub_eq_zero.2 h
  push_cast
  rw [hmod]

/-- An arithmetic shift multiplies or divides the signed value, rounding down (R420). -/
theorem arithmeticShift_of_toInt {w : Nat} {v r : BitVec w} {c : Int}
    (h : (r.toInt - (if 0 ≤ c then v.toInt * 2 ^ c.natAbs else v.toInt / 2 ^ c.natAbs)) % 2 ^ w = 0) :
    (if 0 ≤ c then v <<< c.natAbs else v.sshiftRight c.natAbs) = r := by
  rw [← BitVec.ofInt_toInt (x := r), ofInt_congr h, shiftLeft_eq_ofInt, sshiftRight_eq_ofInt]
  split <;> rfl

/-! ### Rotated values -/

/-- The bit of a left rotation at `i` comes from a bit `k` with `k + m` congruent to `i`. -/
theorem getLsbD_rotateLeft_source {w : Nat} (v : BitVec w) (m : Nat) {i : Nat} (hi : i < w) :
    ∃ k < w, ∃ z : Int, (v.rotateLeft m).getLsbD i = v.getLsbD k ∧ (k : Int) + m = i + w * z := by
  have hm : (w : Int) * (m / w) + m % w = m := Int.mul_ediv_add_emod m w
  have hlt := Nat.mod_lt m (show 0 < w by omega)
  rw [BitVec.getLsbD_rotateLeft]
  by_cases h : i < m % w
  · refine ⟨w - m % w + i, by omega, (m / w : Nat) + 1, by simp [h], ?_⟩
    push_cast [hlt.le]
    linear_combination -hm
  · refine ⟨i - m % w, by omega, (m / w : Nat), by simp [h, hi], ?_⟩
    push_cast [Nat.not_lt.1 h]
    linear_combination -hm

/-- The bit of a right rotation at `i` comes from a bit `k` with `k - m` congruent to `i`. -/
theorem getLsbD_rotateRight_source {w : Nat} (v : BitVec w) (m : Nat) {i : Nat} (hi : i < w) :
    ∃ k < w, ∃ z : Int, (v.rotateRight m).getLsbD i = v.getLsbD k ∧ (k : Int) - m = i + w * z := by
  have hm : (w : Int) * (m / w) + m % w = m := Int.mul_ediv_add_emod m w
  have hlt := Nat.mod_lt m (show 0 < w by omega)
  rw [BitVec.getLsbD_rotateRight]
  by_cases h : i < w - m % w
  · refine ⟨m % w + i, by omega, -(m / w : Nat), by simp [h], ?_⟩
    push_cast
    linear_combination hm
  · refine ⟨i - (w - m % w), by omega, -(m / w : Nat) - 1, by simp [h, hi], ?_⟩
    push_cast [Nat.not_lt.1 h, hlt.le]
    linear_combination hm

/-- A rotation by `c` moves bit `k` to `k + c`, modulo the width (R285). -/
theorem rotation_of_getLsbD {w : Nat} {v r : BitVec w} {c : Int}
    (h : ∀ k < w, v.getLsbD k = r.getLsbD (((k : Int) + c) % w).toNat) :
    (if 0 ≤ c then v.rotateLeft c.natAbs else v.rotateRight c.natAbs) = r := by
  have hsource : ∀ i < w, ∃ k < w, ∃ z : Int,
      (if 0 ≤ c then v.rotateLeft c.natAbs else v.rotateRight c.natAbs).getLsbD i = v.getLsbD k ∧
        (k : Int) + c = i + w * z := by
    intro i hi
    split
    · next hc =>
      obtain ⟨k, hk, z, hbit, hz⟩ := getLsbD_rotateLeft_source v c.natAbs hi
      exact ⟨k, hk, z, hbit, by omega⟩
    · next hc =>
      obtain ⟨k, hk, z, hbit, hz⟩ := getLsbD_rotateRight_source v c.natAbs hi
      exact ⟨k, hk, z, hbit, by omega⟩
  apply BitVec.eq_of_getLsbD_eq
  intro i hi
  obtain ⟨k, hk, z, hbit, hz⟩ := hsource i hi
  have hplace : (((k : Int) + c) % w).toNat = i := by
    rw [hz, Int.add_mul_emod_self_left, Int.emod_eq_of_lt (by omega) (by omega), Int.toNat_natCast]
  rw [hbit, h k hk, hplace]

/-- Settles O25: the count picks the shift, and each shift is the word that the statement describes. -/
theorem shiftResult : Obligations.ShiftResult := by
  intro len cnt dst s s1 t n v r l hread hplace hv
  refine ⟨fun hn hw => ⟨fun hr => ?_, fun hr => ?_, fun hr => ?_⟩, fun hn hw => ?_⟩
  · exact shiftOp_of_readInt hread hplace hv (by rwa [shiftResult_of_le _ _ _ _ hn, logicalShift_of_toNat hr])
  · exact shiftOp_of_readInt hread hplace hv (by rwa [shiftResult_of_le _ _ _ _ hn, arithmeticShift_of_toInt hr])
  · exact shiftOp_of_readInt hread hplace hv (by rwa [shiftResult_of_le _ _ _ _ hn, rotation_of_getLsbD hr])
  · have hopen := fun left right => shiftResult_of_lt left right s1 v hn
    exact ⟨shiftOp_of_readInt hread hplace hv (by rwa [hopen]), shiftOp_of_readInt hread hplace hv (by rwa [hopen]),
      shiftOp_of_readInt hread hplace hv (by rwa [hopen])⟩

/-! ### Packed decimal digits -/

theorem bcdDigits_lt (n v : Nat) : bcdDigits n v < 16 ^ n := by
  induction n generalizing v with
  | zero => simp [bcdDigits]
  | succ n ih =>
    have := ih (v / 10)
    rw [bcdDigits, Nat.pow_succ]
    omega

/-- Packed digits stand for the number they were made of, cut to as many digits. -/
theorem bcdValue_bcdDigits (n v : Nat) : bcdValue n (bcdDigits n v) = some (v % 10 ^ n) := by
  induction n generalizing v with
  | zero => simp [bcdValue, Nat.mod_one]
  | succ n ih =>
    have hlow : bcdDigits (n + 1) v % 16 = v % 10 := by rw [bcdDigits]; omega
    have hhigh : bcdDigits (n + 1) v / 16 = bcdDigits n (v / 10) := by rw [bcdDigits]; omega
    rw [bcdValue, hlow, hhigh, ih, if_pos (by omega), Option.map_some, Nat.pow_succ', Nat.mod_mul]

theorem bcdDigits_mod (n v : Nat) : bcdDigits n (v % 10 ^ n) = bcdDigits n v := by
  induction n generalizing v with
  | zero => rfl
  | succ n ih =>
    rw [bcdDigits, bcdDigits, Nat.pow_succ', Nat.mod_mul_right_mod, Nat.mod_mul_right_div_self, ih]

/-- A digit above 9 stands for no number (log entry 26). -/
theorem bcdValue_eq_none {n v k : Nat} (hk : k < n) (h : 9 < v / 16 ^ k % 16) : bcdValue n v = none := by
  induction n generalizing v k with
  | zero => omega
  | succ n ih =>
    rw [bcdValue]
    cases k with
    | zero => rw [if_neg (by simpa using h)]
    | succ k =>
      rw [Nat.pow_succ', ← Nat.div_div_eq_div_mul] at h
      rw [ih (Nat.lt_of_succ_lt_succ hk) h, Option.map_none, ite_self]

theorem toNat_packed (len : IntLen) (x : Nat) :
    (BitVec.ofNat (lenBits len) (bcdDigits (lenBits len / 4) x)).toNat = bcdDigits (lenBits len / 4) x := by
  have hpow : 16 ^ (lenBits len / 4) = 2 ^ lenBits len := by cases len <;> rfl
  rw [BitVec.toNat_ofNat, ← hpow, Nat.mod_eq_of_lt (bcdDigits_lt _ _)]

theorem bcdValue_packed (len : IntLen) {x : Nat} (h : x < 10 ^ (lenBits len / 4)) :
    bcdValue (lenBits len / 4) (BitVec.ofNat (lenBits len) (bcdDigits (lenBits len / 4) x)).toNat = some x := by
  rw [toNat_packed, bcdValue_bcdDigits, Nat.mod_eq_of_lt h]

/-! ### Packed decimal results -/

theorem decimalSum_of_bcdValue {w a b x y : Nat} (cin : Bool) (hx : bcdValue (w / 4) a = some x)
    (hy : bcdValue (w / 4) b = some y) : decimalSum w a b cin =
      some (bcdDigits (w / 4) ((y + x + cin.toNat) % 10 ^ (w / 4)), decide (10 ^ (w / 4) ≤ y + x + cin.toNat)) := by
  rw [decimalSum, hx, hy, bcdDigits_mod, Nat.add_comm y x]
  rfl

theorem decimalDifference_of_bcdValue {w a b x y : Nat} (cin : Bool) (hx : bcdValue (w / 4) a = some x)
    (hy : bcdValue (w / 4) b = some y) : decimalDifference w a b cin =
      some (bcdDigits (w / 4) ((10 ^ (w / 4) + y - x - cin.toNat) % 10 ^ (w / 4)), decide (y < x + cin.toNat)) := by
  rw [decimalDifference, hx, hy, bcdDigits_mod, Nat.sub_sub]
  rfl

theorem decimalSum_eq_none {w a b : Nat} (cin : Bool) (h : bcdValue (w / 4) a = none ∨ bcdValue (w / 4) b = none) :
    decimalSum w a b cin = none := by
  rcases h with h | h
  · rw [decimalSum, h]; rfl
  · rw [decimalSum, h]; cases bcdValue (w / 4) a <;> rfl

theorem decimalDifference_eq_none {w a b : Nat} (cin : Bool) (h : bcdValue (w / 4) a = none ∨ bcdValue (w / 4) b = none) :
    decimalDifference w a b cin = none := by
  rcases h with h | h
  · rw [decimalDifference, h]; rfl
  · rw [decimalDifference, h]; cases bcdValue (w / 4) a <;> rfl

/-- F is open even where the result is not (log entry 26). -/
theorem decimalResult_some (w : Nat) (s : State) (v : Nat) (c : Bool) : decimalResult w s (some (v, c)) =
    (BitVec.ofNat w v, ((drawn s).setFlag .c c).setFlag .f ((openValue 64 s).getLsbD 0)) := by
  rw [openValue, BitVec.setWidth_eq]
  rfl

theorem decimalResult_none (w : Nat) (s : State) : decimalResult w s none = (openValue w (drawn s),
    ((drawn (drawn s)).setFlag .c ((openValue 64 s).getLsbD 1)).setFlag .f ((openValue 64 s).getLsbD 0)) := by
  rw [openValue, openValue, BitVec.setWidth_eq]
  rfl

/-- Settles O26: packing and unpacking are inverse, so that the digits of the sum or difference are those of the result. -/
theorem decimalResult : Obligations.DecimalResult := by
  intro len src dst s s1 t a b l hread hplace hb
  refine ⟨fun x y hx hy ha hb' => ?_, fun ⟨k, hk, hdigit⟩ hw => ?_⟩
  · subst ha hb'
    have hxv := bcdValue_packed len hx
    have hyv := bcdValue_packed len hy
    refine ⟨fun hw => binaryOp_of_readInt hread hplace hb ?_, fun hw => binaryOp_of_readInt hread hplace hb ?_⟩
    · rwa [decimalSum_of_bcdValue _ hxv hyv, decimalResult_some]
    · rwa [decimalDifference_of_bcdValue _ hxv hyv, decimalResult_some]
  · have hnone := hdigit.imp (bcdValue_eq_none hk) (bcdValue_eq_none hk)
    exact ⟨binaryOp_of_readInt hread hplace hb (by rwa [decimalSum_eq_none _ hnone, decimalResult_none]),
      binaryOp_of_readInt hread hplace hb (by rwa [decimalDifference_eq_none _ hnone, decimalResult_none])⟩

end Sys2Proof.Proofs
end

section
/-! PROOFS about FFSi, CVTP and INDEXi (O28), CHECKi (O29) and the bit fields (O30). -/

namespace Sys2Proof.Proofs

open Sys2Proof.Machine Sys2Proof.Claims

/-! ### The first set bit -/

section

variable {w : Nat} {v : BitVec w}

theorem firstSet_eq_some {m k n : Nat} (hk : k ≤ n) (hn : n < k + m) (hset : v.getLsbD n = true)
    (hclear : ∀ j, k ≤ j → j < n → v.getLsbD j = false) : firstSet v m k = some n := by
  induction m generalizing k with
  | zero => omega
  | succ m ih =>
    rw [firstSet]
    rcases hk.eq_or_lt with rfl | hlt
    · rw [if_pos hset]
    · have hfirst : ¬v.getLsbD k = true := by rw [hclear k le_rfl hlt]; decide
      rw [if_neg hfirst]
      exact ih hlt (by omega) (fun j hj => hclear j (by omega))

theorem firstSet_eq_none {m k : Nat} (hclear : ∀ j, k ≤ j → j < k + m → v.getLsbD j = false) : firstSet v m k = none := by
  induction m generalizing k with
  | zero => rfl
  | succ m ih =>
    have hfirst : ¬v.getLsbD k = true := by rw [hclear k le_rfl (by omega)]; decide
    rw [firstSet, if_neg hfirst]
    exact ih (fun j hj h => hclear j (by omega) (by omega))

end

/-- What FFSi answers, and the state with its F: the first set bit from the start `k`, or 0 with F set; from a start beyond
the operand both are open (log entry 28). -/
def findResult {w : Nat} (v : BitVec w) (k : Byte) (s : State) : Byte × State :=
  if k.toNat < w then
    match firstSet v (w - k.toNat) k.toNat with
    | some n => (BitVec.ofNat 8 n, s.setFlag .f false)
    | none => (0#8, s.setFlag .f true)
  else (openValue 8 s, (drawn s).setFlag .f ((Config.freeValue s.freeIdx).getLsbD 8))

theorem exec_ffsi {field : RegLen} {base off : Gen} {s s1 t : State} {v : IntVal field.len} {k : Byte} {l : Loc}
    (hread : readInt field.len base s = .ok (v, s1)) (hplace : place off s1 = .ok l) (hk : l.readInt .b s1 = .ok k)
    (hwrite : l.writeInt .b (findResult v k s1).1 (findResult v k s1).2 = .ok t) :
    exec (.ffsi field base off) s = .next (t.advance (.ffsi field base off)) :=
  finish_eq_next.2 (bind_eq_ok.2 ⟨_, hread, bind_eq_ok.2 ⟨l, hplace, bind_eq_ok.2 ⟨k, hk, bind_eq_ok.2 ⟨t, hwrite, rfl⟩⟩⟩⟩)

theorem findResult_some {w : Nat} {v : BitVec w} {k : Byte} {n : Nat} (s : State) (hlt : k.toNat < w)
    (h : firstSet v (w - k.toNat) k.toNat = some n) : findResult v k s = (BitVec.ofNat 8 n, s.setFlag .f false) := by
  simp only [findResult, if_pos hlt, h]

theorem findResult_none {w : Nat} {v : BitVec w} {k : Byte} (s : State) (hlt : k.toNat < w)
    (h : firstSet v (w - k.toNat) k.toNat = none) : findResult v k s = (0#8, s.setFlag .f true) := by
  simp only [findResult, if_pos hlt, h]

theorem findResult_beyond {w : Nat} {v : BitVec w} {k : Byte} (s : State) (hle : w ≤ k.toNat) :
    findResult v k s = (openValue 8 s, (drawn s).setFlag .f ((openValue 64 s).getLsbD 8)) := by
  rw [findResult, if_neg (Nat.not_lt.2 hle), openValue, openValue, BitVec.setWidth_eq]

/-! ### Bit pointers and array indices -/

theorem exec_cvtp {field : RegLen} {base dst : Gen} {s t : State} {a : Dword} (hplace : place base s = .ok (.mem a))
    (hwrite : writeInt .d dst (8#32 * a + s.reg field.reg) s = .ok t) :
    exec (.cvtp field base dst) s = .next (t.advance (.cvtp field base dst)) := by
  simp only [exec, execCvtp, effAddr_eq_ok.2 hplace, hwrite, ok_bind, pure_eq_ok, finish_ok]

/-- The index is computed modulo 2^32, whatever the operands' length. -/
theorem index_of_toNat {len : IntLen} {acc r : Dword} {n k : IntVal len}
    (h : r.toNat = (acc.toNat * (n.toNat + 1) + k.toNat) % 2 ^ 32) :
    acc * (n.setWidth 32 + 1#32) + k.setWidth 32 = r := by
  apply BitVec.eq_of_toNat_eq
  rw [h]
  simp only [BitVec.toNat_add, BitVec.toNat_mul, BitVec.toNat_setWidth, BitVec.toNat_ofNat, Nat.add_mod_mod, Nat.mod_add_mod,
    Nat.mul_mod_mod]

theorem exec_indexi {len : IntLen} {acc : Reg} {size idx : Gen} {s s1 s2 : State} {n k : IntVal len} {r : Dword}
    (hn : readInt len size s = .ok (n, s1)) (hk : readInt len idx s1 = .ok (k, s2))
    (hr : s2.reg acc * (n.setWidth 32 + 1#32) + k.setWidth 32 = r) :
    exec (.indexi len acc size idx) s = .next ((s2.setReg acc r).advance (.indexi len acc size idx)) := by
  simp only [exec, execIndexi, hn, hk, hr, ok_bind, pure_eq_ok, finish_ok]

/-- Settles O28: the three ends of FFSi's search, and the two products. -/
theorem findConvertIndexResult : Obligations.FindConvertIndexResult := by
  refine ⟨fun field base off s s1 t v k n l hread hplace hk => ⟨fun hkn hn hset hclear hw => ?_, fun hlt hclear hw => ?_,
    fun hle hw => ?_⟩, fun field base dst s t a => exec_cvtp,
    fun len acc size idx s s1 s2 n k r hn hk hr => exec_indexi hn hk (index_of_toNat hr)⟩
  · have hfirst := firstSet_eq_some (m := lenBits field.len - k.toNat) hkn (by omega) hset hclear
    exact exec_ffsi hread hplace hk (by rwa [findResult_some s1 (by omega) hfirst])
  · have hfirst := firstSet_eq_none (m := lenBits field.len - k.toNat) (fun j hj h => hclear j hj (by omega))
    exact exec_ffsi hread hplace hk (by rwa [findResult_none s1 hlt hfirst])
  · exact exec_ffsi hread hplace hk (by rwa [findResult_beyond s1 hle])

/-! ### Bounds -/

/-- What CHECKi puts in its register: inside the bounds the low bits are the source less the lower bound (log entry 27). -/
def checkedIndex {len : IntLen} (hi lo v : IntVal len) (s : State) : Dword :=
  if lo.sle v && v.sle hi then mergeLow len.bytes (openValue 32 s) ((v - lo).setWidth 32) else openValue 32 s

theorem exec_checki {len : IntLen} {dst : Reg} {bounds src : Gen} {s s1 : State} {a : Dword} {hi lo v : IntVal len}
    (hplace : place bounds s = .ok (.mem a)) (hhi : (Loc.mem a).readInt len s = .ok hi)
    (hlo : (Loc.mem (a + BitVec.ofNat 32 len.bytes)).readInt len s = .ok lo) (hread : readInt len src s = .ok (v, s1)) :
    exec (.checki len dst bounds src) s =
      .next ((((drawn s1).setReg dst (checkedIndex hi lo v s1)).setFlag .f (!(lo.sle v && v.sle hi))).advance
        (.checki len dst bounds src)) := by
  simp only [exec, execChecki, effAddr_eq_ok.2 hplace, hhi, hlo, hread, State.drawFree, ok_bind, pure_eq_ok, finish_ok]
  rfl

theorem setWidth_mergeLow (len : IntLen) (old : Dword) (v : IntVal len) :
    (mergeLow len.bytes old (v.setWidth 32)).setWidth (lenBits len) = v := by
  apply BitVec.eq_of_getLsbD_eq
  intro k hk
  have h32 : k < 32 := hk.trans_le (lenBits_le len)
  rw [BitVec.getLsbD_setWidth, getLsbD_mergeLow _ _ _ h32, if_pos (by rwa [← lenBits_eq]), BitVec.getLsbD_setWidth]
  simp [hk, h32]

/-- Settles O29: only F and the register differ from the state after the source was read. -/
theorem checkResult : Obligations.CheckResult := by
  intro len dst bounds src s s1 a hi lo v hplace hhi hlo hread
  refine ⟨_, exec_checki hplace hhi hlo hread, ?_, keptPsr_putFlag (b := !(lo.sle v && v.sle hi)) (by simp [drawn]),
    fun r hr => ?_, by simp [drawn], by simp [KeptStacks, drawn], by simp [KeptSpecial, drawn], by simp [drawn],
    fun hle1 hle2 => ?_⟩
  · rw [flag_advance, flag_setFlag_same, BitVec.sle_eq_decide, BitVec.sle_eq_decide, ← Bool.decide_and, decide_not]
  · rw [reg_advance, reg_setFlag, reg_setReg_ne _ _ (by simpa using hr)]
    rfl
  · rw [reg_advance, reg_setFlag, reg_setReg_same, checkedIndex, BitVec.sle_eq_decide, BitVec.sle_eq_decide,
      decide_eq_true hle1, decide_eq_true hle2, Bool.and_self, if_pos rfl, setWidth_mergeLow]

/-! ### Bit fields -/

/-- The double-word of a field at offset `e` from the place `l` is `m`, and `k` is the field's first bit in it (log entry 29). -/
def FieldAt (l m : Loc) (e : Dword) (k : Nat) : Prop :=
  (∃ a : Dword, l = .mem a ∧ m = .mem (a + BitVec.ofInt 32 (e.toInt / 8)) ∧ (k : Int) = e.toInt % 8) ∨
    (∃ r, l = .reg r ∧ m = .reg r ∧ (k : Int) = e.toInt % 32)

theorem placeField_of_place {base : Gen} {e : Dword} {s : State} {l m : Loc} {k : Nat} (hplace : place base s = .ok l)
    (h : FieldAt l m e k) : placeField base e s = .ok (m, k) := by
  rcases h with ⟨a, rfl, rfl, hk⟩ | ⟨r, rfl, rfl, hk⟩
  · simp only [placeField, hplace, ok_bind, bitByte, bitPos, ← hk, Int.toNat_natCast]
  · simp only [placeField, hplace, ok_bind, ← hk, Int.toNat_natCast]

theorem fieldFits_iff {k size : Nat} : fieldFits k size = true ↔ 1 ≤ size ∧ k + size ≤ 32 := by
  simp only [fieldFits, Bool.and_eq_true, decide_eq_true_eq]

theorem fieldFits_of_not {k size : Nat} (h : size < 1 ∨ 32 < k + size) : ¬fieldFits k size = true := by
  rw [fieldFits_iff]
  omega

theorem getLsbD_fieldOnes {size j : Nat} (hj : j < 32) : (BitVec.ofNat 32 (2 ^ size - 1)).getLsbD j = decide (j < size) := by
  rw [BitVec.getLsbD_ofNat, Nat.testBit_two_pow_sub_one, decide_eq_true hj, Bool.true_and]

/-- The field moved down to bit 0. -/
theorem extracted_of_getLsbD {d f : Dword} {k size : Nat}
    (h : ∀ j < 32, f.getLsbD j = (decide (j < size) && d.getLsbD (k + j))) :
    d >>> k &&& BitVec.ofNat 32 (2 ^ size - 1) = f := by
  apply BitVec.eq_of_getLsbD_eq
  intro j hj
  rw [h j hj, BitVec.getLsbD_and, getLsbD_fieldOnes hj, BitVec.getLsbD_ushiftRight, Bool.and_comm]

/-- The bits of a field's mask. -/
theorem getLsbD_fieldMask {k size j : Nat} (hj : j < 32) :
    (BitVec.ofNat 32 (2 ^ size - 1) <<< k).getLsbD j = decide (k ≤ j ∧ j < k + size) := by
  rw [BitVec.getLsbD_shiftLeft, getLsbD_fieldOnes (by omega), Bool.eq_iff_iff]
  simp only [hj, decide_true, Bool.true_and, Bool.and_eq_true, Bool.not_eq_true', decide_eq_false_iff_not, decide_eq_true_eq]
  omega

/-- The double-word with the field replaced. -/
theorem inserted_of_getLsbD {len : IntLen} {v : IntVal len} {d f : Dword} {k size : Nat}
    (h : ∀ j < 32, f.getLsbD j = if k ≤ j ∧ j < k + size then v.getLsbD (j - k) else d.getLsbD j) :
    (d &&& ~~~(BitVec.ofNat 32 (2 ^ size - 1) <<< k) ||| v.setWidth 32 <<< k &&& BitVec.ofNat 32 (2 ^ size - 1) <<< k) = f := by
  apply BitVec.eq_of_getLsbD_eq
  intro j hj
  rw [h j hj, BitVec.getLsbD_or, BitVec.getLsbD_and, BitVec.getLsbD_and, BitVec.getLsbD_not, getLsbD_fieldMask hj,
    BitVec.getLsbD_shiftLeft, BitVec.getLsbD_setWidth]
  by_cases hin : k ≤ j ∧ j < k + size
  · simp [hin, hj, show j - k < 32 by omega, Nat.not_lt.2 hin.1]
  · simp [hin, hj]

section

variable {i : Instr} {len : IntLen} {base other : Gen} {e : Dword} {k size : Nat} {s s1 t : State} {d f : Dword}
  {v : IntVal len} {m : Loc}

theorem extractField_of_fits (hfield : placeField base e s = .ok (m, k)) (hd : m.readInt .d s = .ok d)
    (hfits : fieldFits k size = true) (hf : d >>> k &&& BitVec.ofNat 32 (2 ^ size - 1) = f)
    (hwrite : writeInt len other (f.setWidth _) s = .ok t) :
    extractField i len base other e size s = .ok (t.advance i) := by
  refine bind_eq_ok.2 ⟨(m, k), hfield, bind_eq_ok.2 ⟨d, hd, ?_⟩⟩
  simp only [if_pos hfits, hf, hwrite, ok_bind, pure_eq_ok]

theorem extractField_open (hfield : placeField base e s = .ok (m, k)) (hd : m.readInt .d s = .ok d)
    (hfits : ¬fieldFits k size = true) (hwrite : writeInt len other ((openValue 32 s).setWidth _) (drawn s) = .ok t) :
    extractField i len base other e size s = .ok (t.advance i) := by
  refine bind_eq_ok.2 ⟨(m, k), hfield, bind_eq_ok.2 ⟨d, hd, ?_⟩⟩
  simp only [if_neg hfits]
  exact bind_eq_ok.2 ⟨t, hwrite, rfl⟩

theorem insertField_of_fits (hread : readInt len other s = .ok (v, s1)) (hfield : placeField base e s1 = .ok (m, k))
    (hd : m.readInt .d s1 = .ok d) (hfits : fieldFits k size = true)
    (hf : (d &&& ~~~(BitVec.ofNat 32 (2 ^ size - 1) <<< k) |||
      v.setWidth 32 <<< k &&& BitVec.ofNat 32 (2 ^ size - 1) <<< k) = f)
    (hwrite : m.writeInt .d f s1 = .ok t) : insertField i len other base e size s = .ok (t.advance i) := by
  refine bind_eq_ok.2 ⟨(v, s1), hread, bind_eq_ok.2 ⟨(m, k), hfield, bind_eq_ok.2 ⟨d, hd, ?_⟩⟩⟩
  simp only [if_pos hfits, hf]
  exact bind_eq_ok.2 ⟨t, hwrite, rfl⟩

theorem insertField_open (hread : readInt len other s = .ok (v, s1)) (hfield : placeField base e s1 = .ok (m, k))
    (hd : m.readInt .d s1 = .ok d) (hfits : ¬fieldFits k size = true)
    (hwrite : m.writeInt .d (openValue 32 s1) (drawn s1) = .ok t) :
    insertField i len other base e size s = .ok (t.advance i) := by
  refine bind_eq_ok.2 ⟨(v, s1), hread, bind_eq_ok.2 ⟨(m, k), hfield, bind_eq_ok.2 ⟨d, hd, ?_⟩⟩⟩
  simp only [if_neg hfits]
  exact bind_eq_ok.2 ⟨t, hwrite, rfl⟩

end

/-- The short form has its offset and its length less one in the instruction, the long form in a register and in the
displacement. -/
theorem exec_ext (len : IntLen) (base other : Gen) (off : Reg) (disp : Disp) (o3 : BitVec 3) (z5 : BitVec 5) (long : Bool)
    (s : State) :
    let i := if long then Instr.exti len off base other disp else .extsi len base other o3 z5
    exec i s = finish (extractField i len base other (if long then s.reg off else o3.setWidth 32)
      (if long then disp.val.toNat else z5.toNat + 1) s) := by
  cases long <;> rfl

theorem exec_ins (len : IntLen) (base other : Gen) (off : Reg) (disp : Disp) (o3 : BitVec 3) (z5 : BitVec 5) (long : Bool)
    (s : State) :
    let i := if long then Instr.insi len off other base disp else .inssi len other base o3 z5
    exec i s = finish (insertField i len other base (if long then s.reg off else o3.setWidth 32)
      (if long then disp.val.toNat else z5.toNat + 1) s) := by
  cases long <;> rfl

/-- Settles O30: the field is placed as the statement says, and its bits are those of the shifted and masked words. -/
theorem fieldResult : Obligations.FieldResult := by
  rintro len s s1 t base other off disp o3 z5 e k size d f v l m long ext ins rfl rfl rfl rfl (hat : FieldAt l m _ k)
  refine ⟨fun hplace hd => ⟨fun hsize hk hf hw => ?_, fun hout hw => ?_⟩,
    fun hread hplace hd => ⟨fun hsize hk hf hw => ?_, fun hout hw => ?_⟩⟩
  all_goals
    have hfield := placeField_of_place hplace hat
  · rw [exec_ext, extractField_of_fits hfield hd (fieldFits_iff.2 ⟨hsize, hk⟩) (extracted_of_getLsbD hf) hw, finish_ok]
  · rw [exec_ext, extractField_open hfield hd (fieldFits_of_not hout) hw, finish_ok]
  · rw [exec_ins, insertField_of_fits hread hfield hd (fieldFits_iff.2 ⟨hsize, hk⟩) (inserted_of_getLsbD hf) hw, finish_ok]
  · rw [exec_ins, insertField_open hread hfield hd (fieldFits_of_not hout) hw, finish_ok]

end Sys2Proof.Proofs
end

section
/-! PROOFS about MOVMi and CMPMi (O33): what a block holds after each element. -/

namespace Sys2Proof.Proofs

open Sys2Proof.Machine Sys2Proof.Claims

/-! ### Addresses within a block -/

/-- Below 2^24 the next element's address does not wrap. -/
theorem toNat_add_ofNat {a : Dword} {n : Nat} (h : a.toNat + n ≤ 2 ^ 24) : (a + BitVec.ofNat 32 n).toNat = a.toNat + n := by
  rw [BitVec.toNat_add, BitVec.toNat_ofNat]
  omega

/-- Bytes in a row are the same in two places when the first `n` and the `m` after them are. -/
theorem forall_lt_add_iff {P : Nat → Prop} {n m : Nat} : (∀ k < n + m, P k) ↔ (∀ k < n, P k) ∧ ∀ k < m, P (n + k) := by
  refine ⟨fun h => ⟨fun k hk => h k (by omega), fun k hk => h _ (by omega)⟩, fun ⟨hlow, hhigh⟩ k hk => ?_⟩
  by_cases h : k < n
  · exact hlow k h
  · have := hhigh (k - n) (by omega)
    rwa [Nat.add_sub_cancel' (Nat.not_lt.1 h)] at this

/-! ### Copying -/

/-- Copying one element: its bytes arrive, and no other byte changes. -/
theorem copyElement_of_fits {bytes : Nat} {a b : Dword} (s : State) (hbytes : bytes ≤ 8) (ha : Fits a bytes)
    (hb : Fits b bytes) : ∃ v u, s.load bytes a = .ok v ∧ s.store bytes b v = .ok u ∧ KeptOutside s u b bytes ∧
      ∀ k < bytes, Memory.read u.mem (b.toNat + k) = Memory.read s.mem (a.toNat + k) := by
  obtain ⟨v, hv⟩ := load_of_fits s ha
  obtain ⟨u, hu⟩ := store_of_fits s v hb
  obtain ⟨-, -, hout, hin, -⟩ := store_spec hu
  refine ⟨v, u, hv, hu, hout, fun k hk => ?_⟩
  rw [hin k hk, ← byte_load hv hbytes hk, BitVec.setWidth_ushiftRight_eq_extractLsb]

/-- Copying a block below 2^24 completes; no byte outside the destination changes, and apart from the source it is a copy. -/
theorem copyBlock_of_fits {bytes n : Nat} {a b : Dword} (s : State) (hbytes : bytes ≤ 8) (ha : Fits a (n * bytes))
    (hb : Fits b (n * bytes)) : ∃ t, copyBlock bytes n a b s = .ok t ∧ KeptOutside s t b (n * bytes) ∧
      (Apart a (n * bytes) b (n * bytes) →
        ∀ k < n * bytes, Memory.read t.mem (b.toNat + k) = Memory.read s.mem (a.toNat + k)) := by
  induction n generalizing a b s with
  | zero => exact ⟨s, rfl, fun _ _ => rfl, fun _ k hk => by omega⟩
  | succ n ih =>
    rw [Nat.succ_mul, Nat.add_comm (n * bytes)] at *
    generalize hrest : n * bytes = rest at *
    have ha' : (a + BitVec.ofNat 32 bytes).toNat = a.toNat + bytes := toNat_add_ofNat (by omega)
    have hb' : (b + BitVec.ofNat 32 bytes).toNat = b.toNat + bytes := toNat_add_ofNat (by omega)
    obtain ⟨v, u, hv, hu, hout, hin⟩ := copyElement_of_fits s hbytes (a := a) (b := b) (by omega) (by omega)
    obtain ⟨t, ht, htout, htin⟩ := ih u (a := a + BitVec.ofNat 32 bytes) (b := b + BitVec.ofNat 32 bytes)
      (by omega) (by omega)
    refine ⟨t, bind_eq_ok.2 ⟨v, hv, bind_eq_ok.2 ⟨u, hu, ht⟩⟩, fun k hk => ?_, fun happ => ?_⟩
    · rw [htout k (by omega), hout k (by omega)]
    · refine forall_lt_add_iff.2 ⟨fun k hk => ?_, fun k hk => ?_⟩
      · rw [htout _ (by omega), hin k hk]
      · have hmoved := htin (by omega) k hk
        rw [ha', hb', Nat.add_assoc, Nat.add_assoc] at hmoved
        rw [hmoved, hout _ (by omega)]

/-! ### Comparing -/

/-- Two elements are equal when their bytes are. -/
theorem elementAt_eq_iff {len : IntLen} {s : State} {a b : Dword} : elementAt len s a = elementAt len s b ↔
    ∀ k < len.bytes, Memory.read s.mem (a.toNat + k) = Memory.read s.mem (b.toNat + k) := by
  have hbits := lenBits_eq len
  constructor
  · intro h k hk
    apply BitVec.eq_of_getLsbD_eq
    intro j hj
    have hlt : 8 * k + j < lenBits len := by omega
    have hbit := congrArg (fun v : IntVal len => v.getLsbD (8 * k + j)) h
    simp only [getLsbD_elementAt _ _ _ hlt] at hbit
    rwa [show (8 * k + j) / 8 = k by omega, show (8 * k + j) % 8 = j by omega] at hbit
  · intro h
    apply BitVec.eq_of_getLsbD_eq
    intro i hi
    rw [getLsbD_elementAt _ _ _ hi, getLsbD_elementAt _ _ _ hi, h _ (by omega)]

/-- A comparison that has begun, or that begins with Z set, ends with Z set where the blocks are equal. -/
theorem compareBlock_of_fits {len : IntLen} {n : Nat} {a b : Dword} (s : State) (ha : Fits a (n * len.bytes))
    (hb : Fits b (n * len.bytes)) (hz : n = 0 → s.flag .z = true) :
    ∃ t, compareBlock len n a b s = .ok t ∧ KeptPsr s t [.z, .n, .l] ∧
      (t.flag .z = true ↔ ∀ k < n * len.bytes, Memory.read s.mem (a.toNat + k) = Memory.read s.mem (b.toNat + k)) := by
  induction n generalizing a b s with
  | zero => exact ⟨s, rfl, fun _ _ => rfl, iff_of_true (hz rfl) (fun k hk => by omega)⟩
  | succ n ih =>
    rw [Nat.succ_mul, Nat.add_comm (n * len.bytes)] at *
    have ha' : (a + BitVec.ofNat 32 len.bytes).toNat = a.toNat + len.bytes := toNat_add_ofNat (by omega)
    have hb' : (b + BitVec.ofNat 32 len.bytes).toNat = b.toNat + len.bytes := toNat_add_ofNat (by omega)
    have hx : (Loc.mem a).readInt len s = .ok (elementAt len s a) := readInt_mem (by omega)
    have hy : (Loc.mem b).readInt len s = .ok (elementAt len s b) := readInt_mem (by omega)
    obtain ⟨-, hzero, -, -⟩ := flag_setCompare s (elementAt len s a) (elementAt len s b)
    have hkept := (flagsOnly_setCompare (fun _ h => h) s (elementAt len s a) (elementAt len s b)).psr
    simp only [compareBlock, hx, hy, ok_bind]
    rw [forall_lt_add_iff, ← elementAt_eq_iff]
    by_cases heq : elementAt len s a = elementAt len s b
    · rw [if_pos heq]
      rw [beq_iff_eq.2 heq] at hzero
      obtain ⟨t, ht, hpsr, hflag⟩ := ih (s.setCompare (elementAt len s a) (elementAt len s b))
        (a := a + BitVec.ofNat 32 len.bytes) (b := b + BitVec.ofNat 32 len.bytes) (by omega) (by omega) (fun _ => hzero)
      refine ⟨t, ht, fun k hk => (hpsr k hk).trans (hkept k hk), hflag.trans ?_⟩
      simp only [ha', hb', mem_setCompare, Nat.add_assoc, heq, true_and]
    · rw [if_neg heq]
      rw [beq_eq_false_iff_ne.2 heq] at hzero
      exact ⟨_, rfl, hkept, iff_of_false (by rw [hzero]; decide) (fun h => heq h.1)⟩

/-! ### The instructions -/

section

variable {len : IntLen} {src dst : Gen} {disp : Disp} {s t : State} {a b : Dword}

theorem exec_movmi (hdisp : disp.nonneg = true) (ha : place src s = .ok (.mem a)) (hb : place dst s = .ok (.mem b))
    (ht : copyBlock len.bytes (blockCount disp) a b s = .ok t) :
    exec (.movmi len src dst disp) s = .next (t.advance (.movmi len src dst disp)) := by
  simp only [exec, execMovmi, hdisp, require_true, effAddr_eq_ok.2 ha, effAddr_eq_ok.2 hb, ht, ok_bind, pure_eq_ok, finish_ok]

theorem exec_cmpmi (hdisp : disp.nonneg = true) (ha : place src s = .ok (.mem a)) (hb : place dst s = .ok (.mem b))
    (ht : compareBlock len (blockCount disp) a b s = .ok t) :
    exec (.cmpmi len src dst disp) s = .next (t.advance (.cmpmi len src dst disp)) := by
  simp only [exec, execCmpmi, hdisp, require_true, effAddr_eq_ok.2 ha, effAddr_eq_ok.2 hb, ht, ok_bind, pure_eq_ok, finish_ok]

end

/-- Settles O33, by the two loops over the block's elements. -/
theorem blockResult : Obligations.BlockResult := by
  rintro len src dst disp s a b n hdisp rfl ha hb hfa hfb
  have hbytes : len.bytes ≤ 8 := intLen_bytes_le len
  obtain ⟨t, ht, hout, hcopy⟩ := copyBlock_of_fits s hbytes hfa hfb
  obtain ⟨u, hu, hpsr, hz⟩ := compareBlock_of_fits s hfa hfb (fun h => absurd h (Nat.succ_ne_zero _))
  have htf := copyBlock_spec ht
  have huf := compareBlock_spec hu
  refine ⟨⟨_, exec_movmi hdisp ha hb ht, hout, ?_, ?_, ?_, ?_, ?_, hcopy⟩, _, exec_cmpmi hdisp ha hb hu, ?_, ?_, hpsr,
    ?_, ?_, ?_, hz⟩
  iterate 5
    rw [htf]
    simp [KeptStacks, KeptSpecial]
  iterate 5
    rw [huf]
    simp [KeptStacks, KeptSpecial]

end Sys2Proof.Proofs
end

section
/-! PROOFS about the register lists and the frame (O39, O40): popping a list backwards gives back what pushing it saved. -/

namespace Sys2Proof.Proofs

open Sys2Proof.Machine Sys2Proof.Claims

/-! ### The registers of a list -/

theorem mem_saveList {list : Byte} {r : Reg} : r ∈ saveList list ↔ list.getLsbD r.code.toNat = true := by
  rw [saveList, List.mem_filter]
  exact and_iff_right (by cases r <;> decide)

/-- RESTORE and EXIT number the registers from the other end (log entry 41). -/
theorem restoreList_eq_reverse {list mirrored : Byte} (h : ∀ k < 8, mirrored.getLsbD k = list.getLsbD (7 - k)) :
    restoreList mirrored = (saveList list).reverse := by
  rw [restoreList, saveList, ← List.filter_reverse]
  refine List.filter_congr fun r _ => ?_
  have hcode : r.code.toNat < 8 := r.code.isLt
  rw [h _ (by omega), show 7 - (7 - r.code.toNat) = r.code.toNat by omega]

theorem length_saveList (list : Byte) :
    (saveList list).length = ((List.range 8).filter (fun k => list.getLsbD k)).length := by
  have hrange : List.range 8 = [Reg.r0, .r1, .r2, .r3, .r4, .r5, .r6, .r7].map (fun r => r.code.toNat) := by decide
  rw [hrange, List.filter_map, List.length_map]
  rfl

theorem length_saveList_le (list : Byte) : (saveList list).length ≤ 8 := List.length_filter_le _ _

/-! ### Pushing and popping a list -/

theorem toNat_sub_ofNat {a : Dword} {n : Nat} (h : n ≤ a.toNat) : (a - BitVec.ofNat 32 n).toNat = a.toNat - n := by
  have := a.isLt
  rw [BitVec.toNat_sub, BitVec.toNat_ofNat]
  omega

/-- Pushing a list with room on the stack below 2^24 completes and changes no byte outside that room. -/
theorem pushRegs_of_fits (l : List Reg) (s : State) (hroom : 4 * l.length ≤ s.sp.toNat) (htop : s.sp.toNat ≤ 2 ^ 24) :
    ∃ t, pushRegs l s = .ok t ∧
      ∀ k, s.sp.toNat ≤ k ∨ k < s.sp.toNat - 4 * l.length → Memory.read t.mem k = Memory.read s.mem k := by
  induction l generalizing s with
  | nil => exact ⟨s, rfl, fun _ _ => rfl⟩
  | cons r l ih =>
    rw [List.length_cons] at *
    have hfirst : (s.sp - 4#32).toNat = s.sp.toNat - 4 := toNat_sub_ofNat (n := 4) (by omega)
    obtain ⟨u, hu⟩ := push32_of_fits s (s.reg r) (by omega)
    obtain ⟨-, -, -, hout, -⟩ := push32_spec hu
    have hsp : u.sp.toNat = s.sp.toNat - 4 := by rw [sp_push32 hu, hfirst]
    obtain ⟨t, ht, htout⟩ := ih u (by omega) (by omega)
    exact ⟨t, bind_eq_ok.2 ⟨u, hu, ht⟩, fun k hk => (htout k (by omega)).trans (hout k (by omega))⟩

theorem sp_pushRegs {l : List Reg} {s t : State} (h : pushRegs l s = .ok t) :
    t.sp = s.sp - BitVec.ofNat 32 (4 * l.length) := by
  rw [pushRegs_spec h]
  exact sp_setSp s _

theorem popRegs_append (l m : List Reg) (s : State) : popRegs (l ++ m) s = popRegs l s >>= popRegs m := by
  induction l generalizing s with
  | nil => rfl
  | cons r l ih =>
    rw [List.cons_append, popRegs, popRegs]
    cases s.pop32 with
    | error e => rfl
    | ok p => exact ih _

/-- Setting SP does not disturb the registers. -/
theorem setSp_regs (s : State) (v : Dword) (regs : Regs) :
    ({ s with regs := regs } : State).setSp v = { s.setSp v with regs := regs } := by
  have hS : ({ s with regs := regs } : State).flag .s = s.flag .s := rfl
  unfold State.setSp
  rw [hS]
  split <;> rfl

/-- Setting SP does not disturb FP and memory. -/
theorem setSp_fp_memory (s : State) (v fp : Dword) (mem : List Host.Cell) (unflushed : List Nat) :
    ({ s with fp := fp, mem := mem, unflushed := unflushed } : State).setSp v =
      { s.setSp v with fp := fp, mem := mem, unflushed := unflushed } := by
  have hS : ({ s with fp := fp, mem := mem, unflushed := unflushed } : State).flag .s = s.flag .s := rfl
  unfold State.setSp
  rw [hS]
  split <;> rfl

/-- Where popping a list ends: SP is back at a value, the registers of the list are those of a state, the others and all
else are as they were. -/
structure Popped (l : List Reg) (sp : Dword) (saved v u : State) : Prop where
  frame : u = { v.setSp sp with regs := u.regs }
  regs : ∀ r, u.reg r = if r ∈ l then saved.reg r else v.reg r

theorem Popped.sp_eq {l : List Reg} {sp : Dword} {saved v u : State} (h : Popped l sp saved v u) : u.sp = sp := by
  rw [h.frame]
  exact sp_setSp v sp

/-- One more register popped. -/
theorem Popped.cons {l : List Reg} {r : Reg} {sp : Dword} {s saved v u : State} (h : Popped l sp saved v u)
    (hsaved : ∀ q, saved.reg q = s.reg q) (next : Dword) :
    Popped (r :: l) next s v ((u.setSp next).setReg r (s.reg r)) where
  frame := by
    rw [setReg_frame, h.frame, setSp_regs, setSp_setSp]
  regs q := by
    rw [reg_setReg, reg_setSp, h.regs, hsaved]
    by_cases hq : q = r <;> simp [hq]

/-- Popping backwards what was pushed, from any state with the memory and the stack pointer that the pushes left. -/
theorem popRegs_of_pushRegs {l : List Reg} {s t v : State} (h : pushRegs l s = .ok t) (hroom : 4 * l.length ≤ s.sp.toNat)
    (htop : s.sp.toNat ≤ 2 ^ 24) (hmem : v.mem = t.mem) (hsp : v.sp = t.sp) :
    ∃ u, popRegs l.reverse v = .ok u ∧ Popped l s.sp s v u := by
  induction l generalizing s with
  | nil =>
    rw [pushRegs, Except.ok.injEq] at h
    subst h
    exact ⟨v, rfl, by rw [← hsp, setSp_sp], fun r => by simp⟩
  | cons r l ih =>
    obtain ⟨w, hw, hrest⟩ := bind_eq_ok.1 h
    rw [List.length_cons] at hroom
    have hwsp := sp_push32 hw
    have hwnat : w.sp.toNat = s.sp.toNat - 4 := by rw [hwsp]; exact toNat_sub_ofNat (n := 4) (by omega)
    obtain ⟨u, hu, hpop⟩ := ih hrest (by omega) (by omega)
    have hload : u.load32 u.sp = .ok (s.reg r) := by
      obtain ⟨t', ht', hout⟩ := pushRegs_of_fits l w (by omega) (by omega)
      obtain rfl : t' = t := Except.ok.inj (ht'.symm.trans hrest)
      obtain ⟨-, -, hpushed, -, -⟩ := push32_spec hw
      have humem : u.mem = t'.mem := by rw [hpop.frame, ← hmem]; exact mem_setSp v _
      rw [hpop.sp_eq, load32_congr humem, load32_congr_bytes _ (fun k hk _ => hout k (.inl hk)), hwsp]
      exact hpushed
    have hnext : u.sp + 4#32 = s.sp := by rw [hpop.sp_eq, hwsp, BitVec.sub_add_cancel]
    refine ⟨_, ?_, hpop.cons (fun q => reg_push32 hw q) s.sp⟩
    rw [List.reverse_cons, popRegs_append, hu, ok_bind, popRegs, pop32_eq_ok.2 ⟨hload, rfl⟩, ok_bind, hnext]
    rfl

/-! ### SAVE and RESTORE -/

theorem exec_save {list : Byte} {s t : State} (h : pushRegs (saveList list) s = .ok t) :
    exec (.save list) s = .next (t.advance (.save list)) := by
  simp only [exec, execSave, h, ok_bind, pure_eq_ok, finish_ok]

theorem exec_restore {list : Byte} {s t : State} (h : popRegs (restoreList list) s = .ok t) :
    exec (.restore list) s = .next (t.advance (.restore list)) := by
  simp only [exec, execRestore, h, ok_bind, pure_eq_ok, finish_ok]

/-- The registers after a list is popped, by the bits of the list. -/
theorem Popped.reg_eq {list : Byte} {sp : Dword} {saved v u : State} (h : Popped (saveList list) sp saved v u) (r : Reg) :
    u.reg r = if list.getLsbD r.code.toNat then saved.reg r else v.reg r := by
  rw [h.regs]
  exact if_congr mem_saveList rfl rfl

/-- Settles O39: RESTORE pops backwards the list that SAVE pushed. -/
theorem saveRestore : Obligations.SaveRestore := by
  intro s list mirrored hmirror hroom htop
  have hlen := length_saveList_le list
  obtain ⟨t, ht, hout⟩ := pushRegs_of_fits (saveList list) s (by omega) htop
  have hframe := pushRegs_spec ht
  refine ⟨_, exec_save ht, ?_, ?_, ?_, ?_, ?_, fun k hk => hout k (by omega), fun regs => ?_⟩
  · rw [hframe]; exact regs_setSp s _
  · rw [hframe]; exact psr_setSp s _
  · rw [hframe]; simp [KeptSpecial]
  · rw [hframe]; exact congrArg (· + 2#32) (pc_setSp s _)
  · rw [← length_saveList]; exact (sp_advance t _).trans (sp_pushRegs ht)
  · obtain ⟨u, hu, hpop⟩ :=
      popRegs_of_pushRegs (v := { t.advance (.save list) with regs := regs }) ht (by omega) htop rfl rfl
    rw [← restoreList_eq_reverse hmirror] at hu
    have hpsr : t.psr = s.psr := by rw [hframe]; exact psr_setSp s _
    refine ⟨_, exec_restore hu, hpop.sp_eq, ?_, fun k => ?_, ?_, ?_, hpop.reg_eq⟩
    · rw [psr_advance, hpop.frame, ← hpsr]; exact psr_setSp _ _
    · rw [mem_advance, hpop.frame, mem_setSp]
    · rw [hpop.frame]; simp [KeptSpecial]
    · rw [hpop.frame]; exact congrArg (· + 2#32) (pc_setSp _ _)

/-! ### ENTER and EXIT -/

theorem exec_enter {list : Byte} {d : Disp} {s p t : State} (hp : s.push32 s.fp = .ok p)
    (h : pushRegs (saveList list) (({ p with fp := p.sp } : State).setSp (p.sp - d.val)) = .ok t) :
    exec (.enter list d) s = .next (t.advance (.enter list d)) :=
  finish_eq_next.2 (bind_eq_ok.2 ⟨p, hp, bind_eq_ok.2 ⟨t, h, rfl⟩⟩)

theorem size_enter (list : Byte) (d : Disp) : (Instr.enter list d).size = 2 + d.encode.length := by cases d <;> rfl

theorem exec_exit {list : Byte} {s t : State} {fp : Dword} (h : popRegs (restoreList list) s = .ok t)
    (hfp : t.load32 t.fp = .ok fp) :
    exec (.exit list) s = .next (({ t.setSp (t.fp + 4#32) with fp := fp } : State).advance (.exit list)) := by
  have hpop : (t.setSp t.fp).pop32 = .ok (fp, t.setSp (t.fp + 4#32)) := by
    rw [pop32_eq_ok, sp_setSp, setSp_setSp]
    exact ⟨load32_of_mem hfp (mem_setSp t _), rfl⟩
  exact finish_eq_next.2 (bind_eq_ok.2 ⟨t, h, bind_eq_ok.2 ⟨(fp, t.setSp (t.fp + 4#32)), hpop, rfl⟩⟩)

/-- What ENTER leaves: FP on the stack, FP above the room, the registers below it. -/
structure Entered (list : Byte) (d : Disp) (s t : State) : Prop where
  frame : t = { s.setSp (s.sp - 4#32 - d.val - BitVec.ofNat 32 (4 * (saveList list).length)) with
    fp := s.sp - 4#32, mem := t.mem, unflushed := t.unflushed }
  oldFp : t.load32 (s.sp - 4#32) = .ok s.fp
  outside : ∀ k, s.sp.toNat ≤ k ∨ k < s.sp.toNat - (d.val.toNat + 36) → Memory.read t.mem k = Memory.read s.mem k
  restores : ∀ v : State, v.mem = t.mem → v.sp = t.sp →
    ∃ u, popRegs (saveList list).reverse v = .ok u ∧ Popped (saveList list) (s.sp - 4#32 - d.val) s v u

theorem enter_of_fits {list : Byte} {d : Disp} {s : State} (hroom : d.val.toNat + 36 ≤ s.sp.toNat)
    (htop : s.sp.toNat ≤ 2 ^ 24) : ∃ t, exec (.enter list d) s = .next (t.advance (.enter list d)) ∧ Entered list d s t := by
  have hlen := length_saveList_le list
  have hfp : (s.sp - 4#32).toNat = s.sp.toNat - 4 := toNat_sub_ofNat (n := 4) (by omega)
  have hlow : (s.sp - 4#32 - d.val).toNat = s.sp.toNat - 4 - d.val.toNat := by rw [BitVec.toNat_sub, hfp]; omega
  obtain ⟨p, hp⟩ := push32_of_fits s s.fp (by omega)
  obtain ⟨hpframe, -, hpload, hpout, -⟩ := push32_spec hp
  have hpsp := sp_push32 hp
  generalize hq : ({ p with fp := p.sp } : State).setSp (p.sp - d.val) = q
  have hqsp : q.sp = s.sp - 4#32 - d.val := by rw [← hq, sp_setSp, hpsp]
  have hqmem : q.mem = p.mem := by rw [← hq]; exact mem_setSp _ _
  have hqreg : ∀ r, q.reg r = s.reg r := fun r => by rw [← hq, reg_setSp]; exact reg_push32 hp r
  have hqnat : q.sp.toNat = s.sp.toNat - 4 - d.val.toNat := by rw [hqsp, hlow]
  obtain ⟨t, ht, hout⟩ := pushRegs_of_fits (saveList list) q (by omega) (by omega)
  refine ⟨t, exec_enter hp (by rw [hq]; exact ht), ?_, ?_, fun k hk => ?_, fun v hvmem hvsp => ?_⟩
  · have hbelow : ({ p with fp := p.sp } : State) =
        { s.setSp (s.sp - 4#32) with fp := s.sp - 4#32, mem := p.mem, unflushed := p.unflushed } := by
      rw [hpsp]
      exact congrArg (fun x : State => { x with fp := s.sp - 4#32 }) hpframe
    refine (pushRegs_spec ht).trans ?_
    rw [hqsp, ← hq, setSp_setSp, hbelow, setSp_fp_memory, setSp_setSp]
  · rw [load32_congr_bytes _ (fun k hk _ => hout k (by omega)), load32_congr hqmem, hpload]
  · rw [hout k (by omega), hqmem, hpout k (by omega)]
  · obtain ⟨u, hu, hpop⟩ := popRegs_of_pushRegs ht (by omega) (by omega) hvmem hvsp
    exact ⟨u, hu, hqsp ▸ hpop.frame, fun r => by rw [hpop.regs, hqreg]⟩

/-- Settles O40: EXIT finds the registers below FP, and the old FP at it. -/
theorem enterExit : Obligations.EnterExit := by
  intro s list mirrored d hmirror _ hroom htop
  obtain ⟨t, hexec, hframe, holdFp, hout, hrestores⟩ := enter_of_fits (list := list) hroom htop
  refine ⟨_, hexec, ?_, ?_, ?_, ?_, holdFp, ?_, hout, fun regs => ?_⟩
  · rw [hframe]; rfl
  · rw [hframe]; exact regs_setSp s _
  · rw [hframe]; exact psr_setSp s _
  · rw [hframe, ← length_saveList]; exact sp_setSp s _
  · rw [hframe, pc_advance, size_enter]; simp
  · obtain ⟨u, hu, hpop⟩ := hrestores { t.advance (.enter list d) with regs := regs } rfl rfl
    rw [← restoreList_eq_reverse hmirror] at hu
    have hpsr : t.psr = s.psr := by rw [hframe]; exact psr_setSp s _
    have hufp : u.fp = s.sp - 4#32 := by rw [hpop.frame, hframe]; simp
    have humem : u.mem = t.mem := by rw [hpop.frame]; exact mem_setSp _ _
    refine ⟨_, exec_exit hu (by rw [hufp, load32_congr humem, holdFp]), rfl, ?_, ?_, ?_, fun k => ?_, fun r => ?_⟩
    · rw [hufp, BitVec.sub_add_cancel]; exact sp_setSp u _
    · rw [hpop.frame, ← hpsr]; simp
    · rw [hpop.frame, pc_advance]; exact congrArg (· + 2#32) ((pc_setSp _ _).trans (pc_setSp _ _))
    · rw [mem_advance, mem_advance, ← humem]; exact congrArg (Memory.read · k) (mem_setSp u _)
    · rw [← hpop.reg_eq]; exact reg_setSp u _ r

end Sys2Proof.Proofs
end

section
/-! PROOFS about the trap instructions (O43) and the returns from traps (O46): an entry leaves on the interrupt stack what a
return pops. -/

namespace Sys2Proof.Proofs

open Sys2Proof.Machine Sys2Proof.Claims

/-! ### The trap instructions -/

theorem exec_flag_set {s : State} (h : s.flag .f = true) : exec .flag s = trapHere .flg s := by
  simp only [exec, execFlag, h, if_true]

theorem exec_flag_clear {s : State} (h : s.flag .f = false) : exec .flag s = .next (s.advance .flag) := by
  simp only [exec, execFlag, h, Bool.false_eq_true, if_false, finish_ok]

/-- Settles O43: each is its trap, taken at its own address. -/
theorem trapInstructions : Obligations.TrapInstructions := by
  refine ⟨rfl, rfl, rfl, fun s => ⟨fun t ht => trapHere_eq_next ht, fun t ht => trapHere_eq_next ht, fun t hf ht => ?_,
    exec_flag_clear⟩⟩
  rw [exec_flag_set hf, trapHere_eq_next ht]

/-! ### Returning from a trap -/

/-- The state that a return has made before it adds its displacement to SP (R434). -/
def returnedState (pc saved sb : Dword) (s : State) : State :=
  { (s.setSp (s.sp + 8#32)).setPsr (saved.extractLsb' 16 16) with mod := saved.setWidth 16, sb := sb, pc := pc }

theorem returnFromTrap_of_load32 {disp pc saved sb : Dword} {s : State} (hpc : s.load32 s.sp = .ok pc)
    (hsaved : s.load32 (s.sp + 4#32) = .ok saved) (hsb : s.load32 ((saved.setWidth 16).setWidth 32) = .ok sb) :
    returnFromTrap disp s =
      .ok ((returnedState pc saved sb s).setSp ((returnedState pc saved sb s).sp + disp)) := by
  have hpop : s.pop32 = .ok (pc, s.setSp (s.sp + 4#32)) := pop32_eq_ok.2 ⟨hpc, rfl⟩
  have hpop' : (s.setSp (s.sp + 4#32)).pop32 = .ok (saved, s.setSp (s.sp + 8#32)) := by
    rw [pop32_eq_ok, sp_setSp, setSp_setSp, BitVec.add_assoc]
    exact ⟨load32_of_mem hsaved (mem_setSp s _), rfl⟩
  exact returnFromTrap_eq_ok.2 ⟨pc, _, hpop, saved, _, hpop', sb, load32_of_mem hsb (mem_setSp s _), rfl⟩

/-- In supervisor mode RETT returns (R434, R438), flushing the instruction queue (R66). -/
theorem exec_rett {d : Disp} {s u : State} (hu : s.flag .u = false) (h : returnFromTrap d.val s.flushQueue = .ok u) :
    exec (.rett d) s = .next u := by
  simp only [exec, execRett, privileged_supervisor _ hu, h, finish_ok]

theorem exec_reti {s u : State} (hu : s.flag .u = false) (h : returnFromTrap 0#32 s.flushQueue = .ok u) :
    exec .reti s = .next u := by
  simp only [exec, execReti, privileged_supervisor _ hu, h, finish_ok]

/-! ### What an entry leaves to return to -/

/-- An entry selects the interrupt stack, and supervisor mode. -/
theorem flag_takeException {e : Exception} {ret : Dword} {s t : State} (h : takeException e ret s = .ok t) {fl : Flag}
    (hfl : fl ∈ [Flag.s, .u, .t, .p]) : t.flag fl = false := by
  have hpsr : t.psr = (s.setPsr (entryPsr e s.psr)).psr := by rw [(takeException_spec h).1, psr_setPsr]
  rw [flag_of_psr hpsr, flag_setPsr, entryPsr_clear e _ hfl]

theorem setWidth_savedStatus (s : State) : (savedStatus s).setWidth 16 = s.mod := BitVec.setWidth_append_eq_right

theorem extractLsb'_savedStatus (s : State) : (savedStatus s).extractLsb' 16 16 = putFlag s.psr .p false :=
  BitVec.extractLsb'_append_eq_left

theorem sp_takeException {e : Exception} {ret : Dword} {s t : State} (h : takeException e ret s = .ok t) :
    t.sp = s.sp0 - 8#32 := by
  rw [State.sp, flag_takeException h (by decide), if_neg (by decide), (takeException_spec h).1]

/-- What a return from an entry gives back, before it adds its displacement. -/
structure Returned (ret sb : Dword) (s t w : State) : Prop where
  pc : w.pc = ret
  psr : w.psr = putFlag s.psr .p false &&& psrDefined
  mod : w.mod = s.mod
  sb : w.sb = sb
  sp0 : w.sp0 = s.sp0
  sp1 : w.sp1 = s.sp1
  mem : w.mem = t.mem
  unflushed : w.unflushed = []
  rest : w.regs = s.regs ∧ w.fp = s.fp ∧ w.intbase = s.intbase ∧ w.cfg = s.cfg

theorem Returned.flag_s {ret sb : Dword} {s t w : State} (h : Returned ret sb s t w) : w.flag .s = s.flag .s := by
  have hpsr : w.psr = (s.setPsr (putFlag s.psr .p false)).psr := h.psr
  rw [flag_of_psr hpsr, flag_setPsr, getLsbD_putFlag, if_neg (by decide), State.flag]

theorem Returned.sp {ret sb : Dword} {s t w : State} (h : Returned ret sb s t w) : w.sp = s.sp :=
  sp_congr h.sp0 h.sp1 h.flag_s

/-- The two double-words an entry pushed are the two that a return pops. -/
theorem returned_of_takeException {e : Exception} {ret : Dword} {s t : State} (sb : Dword)
    (h : takeException e ret s = .ok t) : Returned ret sb s t (returnedState ret (savedStatus s) sb t.flushQueue) := by
  have hS : t.flushQueue.flag .s = false := flag_takeException h (by decide)
  have hsp : t.flushQueue.sp + 8#32 = s.sp0 := by
    rw [sp_flushQueue, sp_takeException h, BitVec.sub_add_cancel]
  have hframe := (takeException_spec h).1
  unfold returnedState
  rw [hsp, extractLsb'_savedStatus, setWidth_savedStatus]
  refine ⟨rfl, rfl, rfl, rfl, ?_, ?_, mem_setSp .., unflushed_setSp .., ?_, ?_, ?_, ?_⟩
  · exact (sp0_setSp _ _).trans (if_neg (by rw [hS]; decide))
  · refine ((sp1_setSp _ _).trans (if_neg (by rw [hS]; decide))).trans ?_
    rw [hframe]
    rfl
  · exact (regs_setSp _ _).trans (by rw [hframe]; rfl)
  · exact (fp_setSp _ _).trans (by rw [hframe]; rfl)
  · exact (intbase_setSp _ _).trans (by rw [hframe]; rfl)
  · exact (cfg_setSp _ _).trans (by rw [hframe]; rfl)

/-- The entry of the module table that MOD names lies below 2^24, for MOD has 16 bits (R24). -/
theorem load32_mod (s : State) (m : Word16) : ∃ v, s.load32 (m.setWidth 32) = .ok v := by
  have hmod := m.isLt
  refine load32_of_fits s ?_
  rw [BitVec.toNat_setWidth_of_le (by decide)]
  omega

/-- Settles O46: what the entry pushed is popped, and the restored PSR selects the stack pointer the displacement goes to. -/
theorem returnFromTrap : Obligations.ReturnFromTrap := by
  intro e ret d s t h
  obtain ⟨-, -, -, hsaved, hret, -, -⟩ := takeException_spec h
  have hu := flag_takeException h (fl := .u) (by decide)
  have hsp := sp_takeException h
  obtain ⟨sb, hsb⟩ := load32_mod t s.mod
  have hback := returned_of_takeException sb h
  have hreturn : ∀ disp, Machine.returnFromTrap disp t.flushQueue =
      .ok ((returnedState ret (savedStatus s) sb t.flushQueue).setSp (s.sp + disp)) := by
    intro disp
    have habove : t.flushQueue.sp + 4#32 = s.sp0 - 4#32 := by rw [sp_flushQueue, hsp]; bv_omega
    rw [returnFromTrap_of_load32 (load32_of_mem (by rw [sp_flushQueue, hsp]; exact hret) rfl)
      (load32_of_mem (by rw [habove]; exact hsaved) rfl)
      (load32_of_mem (by rw [setWidth_savedStatus]; exact hsb) rfl), hback.sp]
  generalize returnedState ret (savedStatus s) sb t.flushQueue = w at hback hreturn
  obtain ⟨hregs, hfp, hintbase, hcfg⟩ := hback.rest
  refine ⟨w.setSp (s.sp + d.val), exec_rett hu (hreturn _), fun hd => ?_, ?_, ?_, ?_, sp_setSp _ _, ?_, ?_, ?_, ?_, ?_, ?_,
    ?_, ?_⟩
  · rw [hd]
    exact exec_reti hu (hreturn _)
  · rw [pc_setSp, hback.pc]
  · rw [psr_setSp, hback.psr]
  · rw [mod_setSp, hback.mod]
  · rw [sp0_setSp, sp1_setSp, hback.flag_s, hback.sp0, hback.sp1]
    split
    · rfl
    · rfl
  · rw [sb_setSp, hback.sb, hsb]
  · rw [unflushed_setSp, hback.unflushed]
  · rw [mem_setSp, hback.mem]
  · rw [regs_setSp, hregs]
  · rw [fp_setSp, hfp]
  · rw [intbase_setSp, hintbase]
  · rw [cfg_setSp, hcfg]

end Sys2Proof.Proofs
end

section
/-! PROOFS about the companion instructions: NOP under trace (O8), additions and subtractions (O18), the logical instructions
(O19), comparisons and the bit test (O20, O60), and moves (O21). -/

namespace Sys2Proof.Proofs

open Sys2Proof.Machine Sys2Proof.Claims

/-! ### NOP under trace -/

theorem fetchWindow_eq_cons (m : List Host.Cell) {a : Nat} (ha : a < 2 ^ 24) :
    ∃ rest, fetchWindow m a = Memory.read m a :: rest := by
  have hpos : 0 < maxInstrBytes := by decide
  obtain ⟨n, hn⟩ : ∃ n, min maxInstrBytes (2 ^ 24 - a) = n + 1 := Nat.exists_eq_add_one.2 (by omega)
  exact ⟨fetchBytes m n (a + 1), by rw [fetchWindow, hn, fetchBytes]⟩

theorem decode_nop (rest : List Byte) : decode (0xA2#8 :: rest) = .ok (.nop, rest) := rfl

theorem size_nop : Instr.nop.size = 1 := rfl

/-- Settles O8: NOP goes on to the next instruction with P set, and the end of the step traces it. -/
theorem traceTrapAfterNop : Obligations.TraceTrapAfterNop := by
  intro s t hw hpc ht hbyte hfresh htrap
  have hlt : s.pc.toNat < 2 ^ 24 := hpc
  obtain ⟨rest, hwindow⟩ := fetchWindow_eq_cons s.mem hlt
  have hdecode : decode (fetchWindow s.mem s.pc.toNat) = .ok (.nop, rest) := by rw [hwindow, hbyte, decode_nop]
  have hnone : ∀ k ∈ s.unflushed, ¬InRange k s.pc Instr.nop.size := by
    intro k hk ⟨hlow, hhigh⟩
    rw [size_nop] at hhigh
    exact hfresh k hk (by omega)
  obtain ⟨-, htraced, -, -⟩ := stepRunsDecoded s .nop rest hw hlt hdecode hnone
  have hend : ((s.setFlag .p true).advance .nop).setFlag .p false = (s.setPc (s.pc + 1#32)).setFlag .p false :=
    setFlag_setFlag (s.setPc (s.pc + 1#32)) .p true false
  rw [ht] at htraced
  rw [htraced _ rfl (flag_setFlag_same s .p true) hw, hend]
  exact finish_eq_next.2 htrap

/-! ### Additions and subtractions -/

section

variable {w : Nat} {a b r : BitVec w} {v : Int} {cin : Bool}

theorem eq_ofInt_of_toNat (h : (r.toNat : Int) = v % (2 : Int) ^ w) : r = BitVec.ofInt w v := by
  apply BitVec.eq_of_toNat_eq
  rw [BitVec.toNat_ofInt, Nat.cast_pow, Nat.cast_ofNat, ← h, Int.toNat_natCast]

theorem ofInt_sub_eq (w : Nat) (x y : Int) : BitVec.ofInt w (x - y) = BitVec.ofInt w x - BitVec.ofInt w y := by
  rw [Int.sub_eq_add_neg, BitVec.ofInt_add, BitVec.ofInt_neg, BitVec.sub_eq_add_neg]

/-- An integer does not fit exactly when its word has another signed value. -/
theorem not_fitsSigned_eq (hw : 0 < w) (v : Int) : (!fitsSigned w v) = decide (v ≠ (BitVec.ofInt w v).toInt) := by
  rw [decide_not, Bool.not_inj_iff, Bool.eq_iff_iff, decide_eq_true_eq]
  constructor
  · intro h
    obtain ⟨hle, hlt⟩ := fitsSigned_iff.1 h
    exact (BitVec.toInt_ofInt_eq_self hw hle hlt).symm
  · intro h
    rw [h]
    exact fitsSigned_toInt _

/-- The sum, C and F, from the word that is the sum modulo 2^w (R407). -/
theorem addResult_of_toNat (hw : 0 < w) (s : State)
    (h : (r.toNat : Int) = ((b.toNat : Int) + a.toNat + cin.toNat) % (2 : Int) ^ w) :
    addResult cin s a b = (r, (s.setFlag .c (decide (2 ^ w ≤ b.toNat + a.toNat + cin.toNat))).setFlag .f
      (decide (b.toInt + a.toInt + cin.toNat ≠ r.toInt))) := by
  have hunsigned : r = b + a + BitVec.ofNat w cin.toNat := by
    rw [eq_ofInt_of_toNat h, BitVec.ofInt_add, BitVec.ofInt_add]
    simp only [BitVec.ofInt_natCast, BitVec.ofNat_toNat, BitVec.setWidth_eq]
  have hsigned : r = BitVec.ofInt w (b.toInt + a.toInt + cin.toNat) := by
    rw [hunsigned, BitVec.ofInt_add, BitVec.ofInt_add, BitVec.ofInt_toInt, BitVec.ofInt_toInt, BitVec.ofInt_natCast]
  rw [addResult, BitVec.add_comm a b, ← hunsigned, State.setCarryOverflow, addCarry, Nat.add_comm a.toNat, addOverflow,
    Int.add_comm a.toInt, not_fitsSigned_eq hw, ← hsigned]

/-- The difference, C and F, from the word that is the difference modulo 2^w (R409). -/
theorem subResult_of_toNat (hw : 0 < w) (s : State)
    (h : (r.toNat : Int) = ((b.toNat : Int) - a.toNat - cin.toNat) % (2 : Int) ^ w) :
    subResult cin s a b = (r, (s.setFlag .c (decide (b.toNat < a.toNat + cin.toNat))).setFlag .f
      (decide (b.toInt - a.toInt - cin.toNat ≠ r.toInt))) := by
  have hunsigned : r = b - a - BitVec.ofNat w cin.toNat := by
    rw [eq_ofInt_of_toNat h, ofInt_sub_eq, ofInt_sub_eq]
    simp only [BitVec.ofInt_natCast, BitVec.ofNat_toNat, BitVec.setWidth_eq]
  have hsigned : r = BitVec.ofInt w (b.toInt - a.toInt - cin.toNat) := by
    rw [hunsigned, ofInt_sub_eq, ofInt_sub_eq, BitVec.ofInt_toInt, BitVec.ofInt_toInt, BitVec.ofInt_natCast]
  rw [subResult, ← hunsigned, State.setCarryOverflow, subBorrow, subOverflow, not_fitsSigned_eq hw, ← hsigned]

/-- The sum or the difference, with a carry or a borrow in. -/
def addOrSub (sub cin : Bool) (s : State) (a b : BitVec w) : BitVec w × State :=
  if sub then subResult cin s a b else addResult cin s a b

theorem addOrSub_of_toNat (hw : 0 < w) {sub : Bool} (s : State) (h : (r.toNat : Int) =
      (if sub then (b.toNat : Int) - a.toNat - cin.toNat else (b.toNat : Int) + a.toNat + cin.toNat) % (2 : Int) ^ w) :
    addOrSub sub cin s a b = (r, (s.setFlag .c (if sub then decide (b.toNat < a.toNat + cin.toNat)
        else decide (2 ^ w ≤ b.toNat + a.toNat + cin.toNat))).setFlag .f
      (if sub then decide (b.toInt - a.toInt - cin.toNat ≠ r.toInt)
        else decide (b.toInt + a.toInt + cin.toNat ≠ r.toInt))) := by
  cases sub with
  | false => exact addResult_of_toNat hw s h
  | true => exact subResult_of_toNat hw s h

/-- The sum without a carry in. -/
theorem addResult_false (hw : 0 < w) (s : State) (a b : BitVec w) : addResult false s a b =
    (b + a, (s.setFlag .c (decide (2 ^ w ≤ b.toNat + a.toNat))).setFlag .f
      (decide (b.toInt + a.toInt ≠ (b + a).toInt))) := by
  have h : ((b + a).toNat : Int) = ((b.toNat : Int) + a.toNat + false.toNat) % (2 : Int) ^ w := by
    rw [Bool.toNat_false, Int.natCast_zero, Int.add_zero, BitVec.toNat_add]
    push_cast
    rfl
  simpa using addResult_of_toNat hw s h

end

section

variable (len : IntLen) (q : Quick) (src dst : Gen) (s : State)

theorem exec_add : exec (len.pick (.addb src dst) (.addw src dst) (.addd src dst)) s =
    addOp (len.pick (.addb src dst) (.addw src dst) (.addd src dst)) len src dst s := by
  cases len <;> rfl

theorem exec_addc : exec (len.pick (.addcb src dst) (.addcw src dst) (.addcd src dst)) s =
    addCarryOp (len.pick (.addcb src dst) (.addcw src dst) (.addcd src dst)) len src dst s := by
  cases len <;> rfl

theorem exec_sub : exec (len.pick (.subb src dst) (.subw src dst) (.subd src dst)) s =
    subOp (len.pick (.subb src dst) (.subw src dst) (.subd src dst)) len src dst s := by
  cases len <;> rfl

theorem exec_subc : exec (len.pick (.subcb src dst) (.subcw src dst) (.subcd src dst)) s =
    subCarryOp (len.pick (.subcb src dst) (.subcw src dst) (.subcd src dst)) len src dst s := by
  cases len <;> rfl

theorem exec_addq : exec (len.pick (.addqb q dst) (.addqw q dst) (.addqd q dst)) s =
    addQuickOp (len.pick (.addqb q dst) (.addqw q dst) (.addqd q dst)) len q dst s := by
  cases len <;> rfl

end

/-- A quick operand keeps its signed value at every length (R95). -/
theorem toInt_signExtend_quick (len : IntLen) (q : Quick) : (q.signExtend (lenBits len)).toInt = q.toInt :=
  BitVec.toInt_signExtend_of_le (by cases len <;> decide)

/-- Settles O18: the statement's word is the sum or difference, and the integers it compares with give C and F. -/
theorem addSubResult : Obligations.AddSubResult := by
  refine ⟨fun len src dst s s1 t a b r l sub carry cin i hread hplace hb hcin hi hr hw => ?_,
    fun len q dst s t b l i hplace hb hi hw => ?_⟩
  · have hexec : exec i s =
        finish (binaryOp i len src dst s (fun u a b => addOrSub sub (carry && u.flag .c) u a b)) := by
      subst hi
      match sub, carry with
      | false, false => exact exec_add len src dst s
      | false, true => exact exec_addc len src dst s
      | true, false => exact exec_sub len src dst s
      | true, true => exact exec_subc len src dst s
    subst hcin
    rw [hexec]
    exact binaryOp_of_readInt hread hplace hb (by rwa [addOrSub_of_toNat (lenBits_pos len) s1 hr])
  · subst hi
    rw [exec_addq]
    refine finish_eq_next.2 (addTo_eq_ok.2 ⟨l, hplace, b, hb, t, ?_, rfl⟩)
    rw [addResult_false (lenBits_pos len), quickVal, toInt_signExtend_quick]
    exact hw

/-! ### Logical instructions -/

theorem logicOp_of_readInt {i : Instr} {len : IntLen} {src dst : Gen} {s s1 t : State} {a b : IntVal len} {l : Loc}
    {f : IntVal len → IntVal len → IntVal len} (hread : readInt len src s = .ok (a, s1)) (hplace : place dst s1 = .ok l)
    (hb : l.readInt len s1 = .ok b) (hwrite : l.writeInt len (f a b) s1 = .ok t) :
    logicOp i len src dst s f = .next (t.advance i) :=
  binaryOp_of_readInt (f := fun t a b => (f a b, t)) hread hplace hb hwrite

/-- Settles O19: each is the two-operand skeleton with its function of the bits. -/
theorem logicResult : Obligations.LogicResult := by
  intro len src dst s s1 t a b l hread hplace hb
  cases len
  all_goals exact ⟨fun hw => logicOp_of_readInt hread hplace hb hw, fun hw => logicOp_of_readInt hread hplace hb hw,
    fun hw => logicOp_of_readInt hread hplace hb hw, fun hw => logicOp_of_readInt hread hplace hb hw⟩

/-! ### Comparisons and the bit test -/

/-- All a comparison can do. -/
theorem cmpOp_eq_next {i : Instr} {len : IntLen} {src1 src2 : Gen} {s t : State} : cmpOp i len src1 src2 s = .next t ↔
    ∃ a s1, readInt len src1 s = .ok (a, s1) ∧ ∃ b s2, readInt len src2 s1 = .ok (b, s2) ∧
      (s2.setCompare a b).advance i = t := by
  simp only [cmpOp, finish_eq_next, bind_eq_ok, pure_eq_ok, Except.ok.injEq, Prod.exists]

/-- All a comparison with a quick value can do. -/
theorem cmpQuickOp_eq_next {i : Instr} {len : IntLen} {q : Quick} {src : Gen} {s t : State} :
    cmpQuickOp i len q src s = .next t ↔
    ∃ b s1, readInt len src s = .ok (b, s1) ∧ (s1.setCompare (quickVal len q) b).advance i = t := by
  simp only [cmpQuickOp, finish_eq_next, bind_eq_ok, pure_eq_ok, Except.ok.injEq, Prod.exists]

section

variable (len : IntLen) (q : Quick) (g h : Gen) (s : State)

theorem exec_cmp : exec (len.pick (.cmpb g h) (.cmpw g h) (.cmpd g h)) s =
    cmpOp (len.pick (.cmpb g h) (.cmpw g h) (.cmpd g h)) len g h s := by
  cases len <;> rfl

theorem exec_cmpq : exec (len.pick (.cmpqb q g) (.cmpqw q g) (.cmpqd q g)) s =
    cmpQuickOp (len.pick (.cmpqb q g) (.cmpqw q g) (.cmpqd q g)) len q g s := by
  cases len <;> rfl

end

/-- The flags of a comparison, as the integers compare (R402). -/
theorem setCompare_eq {w : Nat} (s : State) (a b : BitVec w) : s.setCompare a b =
    ((s.setFlag .z (decide (a = b))).setFlag .n (decide (b.toInt < a.toInt))).setFlag .l (decide (b.toNat < a.toNat)) := rfl

/-- Settles O20. -/
theorem compareResult : Obligations.CompareResult := by
  refine ⟨fun len src1 src2 s s1 s2 a b ha hb => ?_, fun len q src s s1 b hb => ?_⟩
  · rw [exec_cmp, ← setCompare_eq]
    exact cmpOp_eq_next.2 ⟨a, s1, ha, b, s2, hb, rfl⟩
  · rw [exec_cmpq, ← toInt_signExtend_quick len q, ← setCompare_eq]
    exact cmpQuickOp_eq_next.2 ⟨b, s1, hb, rfl⟩

/-- Only the stack pointers differ, and those only where an operand pops. -/
structure PopsOnly (pops : Prop) (s t : State) : Prop where
  frame : t = { s with sp0 := t.sp0, sp1 := t.sp1 }
  kept : ¬pops → KeptStacks s t

theorem PopsOnly.trans {p q : Prop} {s t u : State} (h : PopsOnly p s t) (k : PopsOnly q t u) : PopsOnly (p ∨ q) s u where
  frame := by rw [k.frame, h.frame]
  kept := fun hpq => by
    obtain ⟨h0, h1⟩ := h.kept fun hp => hpq (.inl hp)
    obtain ⟨k0, k1⟩ := k.kept fun hq => hpq (.inr hq)
    exact ⟨k0.trans h0, k1.trans h1⟩

theorem popsOnly_readInt {len : IntLen} {g : Gen} {s t : State} {v : IntVal len} (h : readInt len g s = .ok (v, t)) :
    PopsOnly (IsTos g) s t where
  frame := readInt_frame h
  kept := fun hg => by
    rw [readInt_spec h, if_neg (show ¬g = .plain .tos from hg)]
    exact ⟨rfl, rfl⟩

/-- The frame that O60 states. -/
def TestFrame (g h : Gen) (flags : List Flag) (s t : State) : Prop :=
  KeptSpecial s t ∧ KeptPsr s t flags ∧ t.regs = s.regs ∧ KeptMemory s t ∧ (¬IsTos g → ¬IsTos h → KeptStacks s t)

theorem testFrame_of_parts {pops : Prop} {g h : Gen} {flags : List Flag} {s s1 s2 : State} (i : Instr)
    (hpops : pops → IsTos g ∨ IsTos h) (hread : PopsOnly pops s s1) (hflags : FlagsOnly flags s1 s2) :
    TestFrame g h flags s (s2.advance i) := by
  obtain ⟨hspecial, hpsr⟩ := keptSpecial_of_parts (i := i) (u := s2) hread.frame hflags rfl
  refine ⟨hspecial, hpsr, ?_, fun k => ?_, fun hg hh => ?_⟩
  · rw [regs_advance, hflags.frame, hread.frame]
  · rw [mem_advance, hflags.frame, hread.frame]
  · obtain ⟨h0, h1⟩ := hread.kept fun hp => (hpops hp).elim hg hh
    rw [KeptStacks, sp0_advance, sp1_advance, hflags.frame]
    exact ⟨h0, h1⟩

/-- Settles O60: only reading an operand moves a stack pointer, and only flags are set. -/
theorem compareFrame : Obligations.CompareFrame := by
  intro len q g h i flags s t hi hexec
  show TestFrame g h flags s t
  simp only [List.mem_cons, Prod.mk.injEq, List.not_mem_nil, or_false] at hi
  rcases hi with ⟨rfl, rfl⟩ | ⟨rfl, rfl⟩ | ⟨rfl, rfl⟩
  · rw [exec_cmp] at hexec
    obtain ⟨a, s1, ha, b, s2, hb, rfl⟩ := cmpOp_eq_next.1 hexec
    exact testFrame_of_parts _ id ((popsOnly_readInt ha).trans (popsOnly_readInt hb))
      (flagsOnly_setCompare (fun _ hfl => hfl) s2 a b)
  · rw [exec_cmpq] at hexec
    obtain ⟨b, s1, hb, rfl⟩ := cmpQuickOp_eq_next.1 hexec
    exact testFrame_of_parts _ .inl (popsOnly_readInt hb) (flagsOnly_setCompare (fun _ hfl => hfl) s1 _ b)
  · rw [exec_tbit] at hexec
    obtain ⟨o, s1, ho, -, -, b, -, rfl⟩ := testBitOp_eq_next.1 hexec
    exact testFrame_of_parts _ .inl (popsOnly_readInt ho) (flagsOnly_setFlag (by decide) s1 b)

/-! ### Moves -/

section

variable {i : Instr} {src dst : Gen} {s s1 t : State}

theorem extendOp_of_readInt {len1 len2 : IntLen} {f : IntVal len1 → IntVal len2} {a : IntVal len1}
    (hread : readInt len1 src s = .ok (a, s1)) (hwrite : writeInt len2 dst (f a) s1 = .ok t) :
    extendOp i len1 len2 src dst s f = .next (t.advance i) := by
  simp only [extendOp, hread, hwrite, ok_bind, pure_eq_ok, finish_ok]

/-- A move is an extension that changes nothing. -/
theorem movOp_of_readInt {len : IntLen} {a : IntVal len} (hread : readInt len src s = .ok (a, s1))
    (hwrite : writeInt len dst a s1 = .ok t) : movOp i len src dst s = .next (t.advance i) :=
  extendOp_of_readInt (f := id) hread hwrite

theorem exec_addr {a : Dword} (hplace : place src s = .ok (.mem a)) (hwrite : writeInt .d dst a s = .ok t) :
    exec (.addr src dst) s = .next (t.advance (.addr src dst)) := by
  simp only [exec, execAddr, effAddr_eq_ok.2 hplace, hwrite, ok_bind, pure_eq_ok, finish_ok]

end

/-- Settles O21: moves and extensions copy the value read, the quick form stores its own value, and ADDR the address. -/
theorem moveResult : Obligations.MoveResult := by
  refine ⟨fun len src dst s s1 t a ha hw => ?_, fun len q dst s t hw => ?_, fun src dst s s1 t a ha => ?_,
    fun src dst s s1 t a ha => ?_, fun src dst s t a hplace hw => exec_addr hplace hw⟩
  · cases len <;> exact movOp_of_readInt ha hw
  · cases len <;> exact storeOp_of_writeInt hw
  · exact ⟨fun hw => extendOp_of_readInt ha hw, fun hw => extendOp_of_readInt ha hw, fun hw => extendOp_of_readInt ha hw,
      fun hw => extendOp_of_readInt ha hw⟩
  · exact ⟨fun hw => extendOp_of_readInt ha hw, fun hw => extendOp_of_readInt ha hw⟩

end Sys2Proof.Proofs
end

section
/-! PROOFS about taking an exception (O42): with the interrupt stack and the dispatch table in memory, nothing stops it. -/

namespace Sys2Proof.Proofs

open Sys2Proof.Machine Sys2Proof.Claims

/-! ### An entry completes -/

/-- The program base of the module that MOD names lies below 2^24 too (R24). -/
theorem load32_mod_programBase (s : State) (m : Word16) : ∃ v, s.load32 (m.setWidth 32 + 8#32) = .ok v := by
  have hmod := m.isLt
  refine load32_of_fits s ?_
  rw [BitVec.toNat_add, BitVec.toNat_setWidth_of_le (by decide)]
  simp only [BitVec.reduceToNat]
  omega

/-- Entering a module always completes: its table entry is addressed by 16 bits. -/
theorem enterModule_completes (s : State) (d : Dword) : ∃ t, s.enterModule d = .ok t := by
  obtain ⟨sb, hsb⟩ := load32_mod s (d.setWidth 16)
  obtain ⟨base, hbase⟩ := load32_mod_programBase s (d.setWidth 16)
  exact ⟨_, enterModule_eq_ok.2 ⟨sb, hsb, base, hbase, rfl⟩⟩

theorem intbase_push32 {s t : State} {v : Dword} (h : s.push32 v = .ok t) : t.intbase = s.intbase := by
  rw [(push32_spec h).1]
  exact intbase_setSp s _

/-- Under the PSR of an entry the stack pointer is SP0 (R433 step 1). -/
theorem sp_setPsr_entryPsr (e : Exception) (s : State) : (s.setPsr (entryPsr e s.psr)).sp = s.sp0 := by
  rw [State.sp, flag_s_setPsr_entryPsr, if_neg (by decide), sp0_setPsr]

/-- Room for two double-words on the interrupt stack and the vector's descriptor in memory are all that an entry needs. -/
theorem takeException_of_fits {e : Exception} {s : State} (ret : Dword) (hroom : 8 ≤ s.sp0.toNat)
    (htop : s.sp0.toNat ≤ 2 ^ 24) (htable : Fits (s.intbase + 4#32 * e.vector) 4) : ∃ t, takeException e ret s = .ok t := by
  have hsp := sp_setPsr_entryPsr e s
  have hfirst : (s.sp0 - 4#32).toNat = s.sp0.toNat - 4 := toNat_sub_ofNat (n := 4) (by omega)
  have hsecond : (s.sp0 - 4#32 - 4#32).toNat = (s.sp0 - 4#32).toNat - 4 := toNat_sub_ofNat (n := 4) (by omega)
  obtain ⟨u, hu⟩ := push32_of_fits (s.setPsr (entryPsr e s.psr)) (savedStatus s) (by rw [hsp]; omega)
  obtain ⟨v, hv⟩ := push32_of_fits u ret (by rw [sp_push32 hu, hsp]; omega)
  have hintbase : v.intbase = s.intbase := by rw [intbase_push32 hv, intbase_push32 hu, intbase_setPsr]
  obtain ⟨d, hd⟩ := load32_of_fits v (hintbase ▸ htable)
  obtain ⟨t, ht⟩ := enterModule_completes v d
  exact ⟨t, takeException_eq_ok.2 ⟨u, hu, v, hv, d, hd, ht⟩⟩

/-! ### What an entry keeps -/

/-- A trap, which is no interrupt, clears four bits of PSR and keeps the others, the reserved ones where they are 0. -/
theorem keptPsr_takeException {e : Exception} {ret : Dword} {s t : State} (h : takeException e ret s = .ok t)
    (htrap : e.isInterrupt = false) (hreserved : s.psr &&& ~~~psrDefined = 0#16) : KeptPsr s t [.s, .u, .t, .p] := by
  intro k hk
  have hpsr : t.psr = entryPsr e s.psr &&& psrDefined := by rw [(takeException_spec h).1]
  have hbit : s.psr.getLsbD k = true → psrDefined.getLsbD k = true := by
    intro hset
    have hzero := congrArg (·.getLsbD k) hreserved
    have hlt := BitVec.lt_of_getLsbD hset
    simpa only [BitVec.getLsbD_and, BitVec.getLsbD_not, hset, hlt, decide_true, Bool.true_and, BitVec.getLsbD_zero,
      Bool.not_eq_false'] using hzero
  have hkeep : (entryPsr e s.psr).getLsbD k = s.psr.getLsbD k :=
    entryPsr_keep e s.psr hk (fun hi => absurd hi (by rw [htrap]; decide))
  rw [hpsr, BitVec.getLsbD_and, hkeep]
  exact Bool.and_eq_left_iff_imp.2 hbit

/-- An entry writes no byte but the eight below SP0. -/
theorem keptOutside_takeException {e : Exception} {ret : Dword} {s t : State} (h : takeException e ret s = .ok t)
    (hroom : 8 ≤ s.sp0.toNat) : KeptOutside s t (s.sp0 - 8#32) 8 := by
  intro k hk
  obtain ⟨-, -, -, -, -, hmem, -⟩ := takeException_spec h
  have hfirst : (s.sp0 - 4#32).toNat = s.sp0.toNat - 4 := toNat_sub_ofNat (n := 4) (by omega)
  have hsecond : (s.sp0 - 8#32).toNat = s.sp0.toNat - 8 := toNat_sub_ofNat (n := 8) hroom
  exact hmem k (by omega) (by omega)

theorem isInterrupt_of_notMem {e : Exception} (h : e ∉ [Exception.nvi, .nmi]) : e.isInterrupt = false := by
  cases e with
  | nvi | nmi => simp at h
  | abt | slave | ill | svc | dvz | flg | bpt | trc | und => rfl

/-- Settles O42: the entry completes, and `takeException_spec` says what it pushes and where it goes. -/
theorem exceptionEntry : Obligations.ExceptionEntry := by
  intro e ret s htrap hreserved hroom htop htable
  obtain ⟨t, ht⟩ := takeException_of_fits ret hroom htop htable
  obtain ⟨hframe, -, -, hsaved, hret, -, d, base, hd, hmod, hsb, hbase, hpc⟩ := takeException_spec ht
  refine ⟨t, d, base, ht, flag_takeException ht (by decide), flag_takeException ht (by decide),
    flag_takeException ht (by decide), flag_takeException ht (by decide),
    keptPsr_takeException ht (isInterrupt_of_notMem htrap) hreserved, ?_, ?_, hsaved, hret,
    keptOutside_takeException ht hroom, hd, hmod, hsb, hbase, hpc, ?_⟩
  · rw [hframe]
  · rw [hframe]
  · rw [hframe]
    and_intros <;> rfl

end Sys2Proof.Proofs
end

section
/-! PROOFS about the state after reset (O10 and O11): nothing is stored, nothing waits for a flush, and PSR is cleared. -/

namespace Sys2Proof.Proofs

open Sys2Proof.Machine

/-- Memory that was never written is in canonical form. -/
theorem wf_nil : Memory.wf [] = true := (wf_iff []).2 ⟨.nil, nofun⟩

theorem addressesWf_nil : Safety.addressesWf [] = true := (addressesWf_iff []).2 ⟨.nil, nofun⟩

/-- A cleared PSR has every flag off: supervisor mode, the interrupt stack, no interrupts (R28). -/
theorem flag_of_psr_eq_zero {s : State} (h : s.psr = 0#16) (fl : Flag) : s.flag fl = false := by
  rw [State.flag, h, BitVec.getLsbD_zero]

theorem psr_reset : State.reset.psr = 0#16 := rfl

/-- Settles O10: both lists are empty after reset, and a cleared PSR has its reserved bits 0. -/
theorem resetInv : Obligations.ResetInv := by
  have hreserved : State.reset.psr &&& ~~~psrDefined = 0#16 := by rw [psr_reset, BitVec.zero_and]
  exact ⟨wf_nil, hreserved, addressesWf_nil, rfl⟩

/-- Settles O11: the three flags are off because PSR is cleared; each other value is a field of the reset state. -/
theorem resetValues : Obligations.ResetValues := by
  have hflag := flag_of_psr_eq_zero psr_reset
  exact ⟨rfl, psr_reset, rfl, hflag .u, hflag .s, hflag .i, rfl, rfl, rfl⟩

end Sys2Proof.Proofs
end
